-- ==== Sys2Proof/Word.lean ====
section
/-!
DEFINITION. The word types of the unit (00_scope.md R8, R9, R10): widths only, every value unsigned, bit 0 the least
significant bit.
-/

namespace Sys2Proof

/-- An operand, register or result: `W` = 32 bits (R8). -/
abbrev Word := BitVec 32

/-- A request message: 64 bits (R8, R70). -/
abbrev ReqMsg := BitVec 64

/-- The input of the shift-amount calculator: the `SKIP_WINDOW` = 8 low bits of `B` (R8, R100). -/
abbrev ShamtIn := BitVec 8

/-- The shift-amount signal: `SHAMT_W` = 4 bits (R8, R78). -/
abbrev ShamtOut := BitVec 4

/-- The FSM state register's contents: `STATE_W` = 2 bits (R8, R76). -/
abbrev FsmCode := BitVec 2

/-- The word `{S[1:0], b_lsb}` the cycle-level operation is decoded from: 3 bits (R79). -/
abbrev CtrlWord := BitVec 3

end Sys2Proof
end

