-- ==== Sys2Proof/Syntax.lean ====
section
/-!
DEFINITION. The operations of the unit: one constructor per row of spec/opcode_table.json (00_scope.md R7).
A bit that a row's pattern leaves free (`x`) is an operand of the constructor, so that no bit of a word is lost
(log entry 14).
-/

namespace Sys2Proof

/-- The rows of the opcode table. -/
inductive Instr where
  /-- `MUL`: every 64-bit request message (R161, R84); `a` = bits 63:32, `b` = bits 31:0 (R82). -/
  | mul (a b : Word)
  /-- `IDLE_LOAD`: `{S, b_lsb}` = `00x` (R79, R150). -/
  | idleLoad (bLsb : BitVec 1)
  /-- `CALC_SHIFT_ADD`: `{S, b_lsb}` = `011` (R79, R151). -/
  | calcShiftAdd
  /-- `CALC_SHIFT`: `{S, b_lsb}` = `010` (R79, R152). -/
  | calcShift
  /-- `DONE_HOLD`: `{S, b_lsb}` = `10x` (R79, R153). -/
  | doneHold (bLsb : BitVec 1)
  /-- `STATE3_RESERVED`: `{S, b_lsb}` = `11x`, no state (R79, R80). -/
  | state3Reserved (bLsb : BitVec 1)
  /-- `SHAMT_1_LSB`: calculator input `xxxxxxx1` (R101). -/
  | shamt1Lsb (input : ShamtIn)
  /-- `SHAMT_1`: calculator input `xxxxxx10` (R101). -/
  | shamt1 (input : ShamtIn)
  /-- `SHAMT_2`: calculator input `xxxxx100` (R101). -/
  | shamt2 (input : ShamtIn)
  /-- `SHAMT_3`: calculator input `xxxx1000` (R101). -/
  | shamt3 (input : ShamtIn)
  /-- `SHAMT_4`: calculator input `xxx10000` (R101). -/
  | shamt4 (input : ShamtIn)
  /-- `SHAMT_5`: calculator input `xx100000` (R101). -/
  | shamt5 (input : ShamtIn)
  /-- `SHAMT_6`: calculator input `x1000000` (R101). -/
  | shamt6 (input : ShamtIn)
  /-- `SHAMT_7`: calculator input `10000000` (R101). -/
  | shamt7 (input : ShamtIn)
  /-- `SHAMT_8`: calculator input `00000000` (R101). -/
  | shamt8 (input : ShamtIn)
deriving DecidableEq, Repr

end Sys2Proof
end

