-- ==== Sys2Proof/WellFormed.lean ====
section
/-!
DEFINITION. Which terms of `Instr` are operations of the table: a calculator row's operand meets the row's pattern
(40_shift_amount.md R101). Every other operand is admitted at every value (R84, R79).
-/

namespace Sys2Proof

/-- The input meets a row's mask and match (R101). -/
def ShamtIn.meets (input mask pattern : ShamtIn) : Bool := input &&& mask == pattern

/-- The checks of R101's truth table, row by row. -/
def Instr.WellFormed : Instr → Bool
  | .mul _ _ => true
  | .idleLoad _ => true
  | .calcShiftAdd => true
  | .calcShift => true
  | .doneHold _ => true
  | .state3Reserved _ => true
  | .shamt1Lsb v => ShamtIn.meets v 0x01 0x01
  | .shamt1 v => ShamtIn.meets v 0x03 0x02
  | .shamt2 v => ShamtIn.meets v 0x07 0x04
  | .shamt3 v => ShamtIn.meets v 0x0F 0x08
  | .shamt4 v => ShamtIn.meets v 0x1F 0x10
  | .shamt5 v => ShamtIn.meets v 0x3F 0x20
  | .shamt6 v => ShamtIn.meets v 0x7F 0x40
  | .shamt7 v => ShamtIn.meets v 0xFF 0x80
  | .shamt8 v => ShamtIn.meets v 0xFF 0x00

end Sys2Proof
end

