-- ==== Sys2Proof/Decode.lean ====
section
/-!
DEFINITION. Decoding and encoding. The spec has three formats (spec/opcode_table.json): a 64-bit request message
(30_encoding.md R70, R84), the 3-bit word `{S, b_lsb}` (R79) and the 8-bit calculator input (40_shift_amount.md R101).
In each format every word has exactly one meaning, so each format's decoder is total and refuses nothing. A word whose
width is no format's is refused by name.
-/

namespace Sys2Proof

/-- The multiplicand field: `a = req_msg[63:32]` (R70, R82). -/
def reqA (m : ReqMsg) : Word := m.extractLsb' 32 32

/-- The multiplier field: `b = req_msg[31:0]` (R70, R82). -/
def reqB (m : ReqMsg) : Word := m.extractLsb' 0 32

/-- The packing `req_msg = {a, b}` (R70). -/
def packReq (a b : Word) : ReqMsg := a ++ b

/-- Every request message is MUL (R84). -/
def decodeReq (m : ReqMsg) : Instr := .mul (reqA m) (reqB m)

/-- The decode map of R79 over `{S[1:0], b_lsb}`, in the table's order of masks and matches. -/
def decodeCtrl (w : CtrlWord) : Instr :=
  if w &&& 0b110 = 0b000 then .idleLoad (w.extractLsb' 0 1)
  else if w &&& 0b111 = 0b011 then .calcShiftAdd
  else if w &&& 0b111 = 0b010 then .calcShift
  else if w &&& 0b110 = 0b100 then .doneHold (w.extractLsb' 0 1)
  else .state3Reserved (w.extractLsb' 0 1)

/-- The truth table of R101 over the calculator's input, in the table's order of masks and matches. -/
def decodeShamt (v : ShamtIn) : Instr :=
  if v &&& 0x01 = 0x01 then .shamt1Lsb v
  else if v &&& 0x03 = 0x02 then .shamt1 v
  else if v &&& 0x07 = 0x04 then .shamt2 v
  else if v &&& 0x0F = 0x08 then .shamt3 v
  else if v &&& 0x1F = 0x10 then .shamt4 v
  else if v &&& 0x3F = 0x20 then .shamt5 v
  else if v &&& 0x7F = 0x40 then .shamt6 v
  else if v &&& 0xFF = 0x80 then .shamt7 v
  else .shamt8 v

/-- A word in one of the three formats. -/
inductive Encoded where
  | req (m : ReqMsg)
  | ctrl (w : CtrlWord)
  | shamtIn (v : ShamtIn)
deriving DecidableEq, Repr

/-- The instruction a word of a known format stands for. -/
def decode : Encoded → Instr
  | .req m => decodeReq m
  | .ctrl w => decodeCtrl w
  | .shamtIn v => decodeShamt v

/-- Why bits are no word of the table. -/
inductive DecodeError where
  /-- No format of the spec has this many bits (R83: no other forms exist). -/
  | noFormat (nbits : Nat)
  /-- The number does not fit in the stated width. -/
  | tooWide (nbits w : Nat)
deriving DecidableEq, Repr

/-- The format of a word of `nbits` bits. A control word takes one whole byte, and so does a calculator input, so eight
bits alone do not tell them apart: the five `match` values of the control rows (0, 2, 3, 4, 6) are read as control
words, every other byte as a calculator input (DESIGN CHOICE, log entry 11). Three bits are always a control word. -/
def classify (nbits w : Nat) : Except DecodeError Encoded :=
  if 2 ^ nbits ≤ w then .error (.tooWide nbits w)
  else if nbits = 64 then .ok (.req (BitVec.ofNat 64 w))
  else if nbits = 3 then .ok (.ctrl (BitVec.ofNat 3 w))
  else if nbits = 8 then
    if w = 0 ∨ w = 2 ∨ w = 3 ∨ w = 4 ∨ w = 6 then .ok (.ctrl (BitVec.ofNat 3 w))
    else .ok (.shamtIn (BitVec.ofNat 8 w))
  else .error (.noFormat nbits)

/-- Decoding of raw bits, total, with refusals by name. -/
def decodeBits (nbits w : Nat) : Except DecodeError Instr :=
  match classify nbits w with
  | .ok e => .ok (decode e)
  | .error e => .error e

/-- The instruction the decoder reads from a word numbered as spec/opcode_table.json numbers it. -/
def decodeTableWord (nbits w : Nat) : Option Instr :=
  match decodeBits nbits w with
  | .ok i => some i
  | .error _ => none

/-- The word of an instruction (R70, R79, R101). -/
def encode : Instr → Encoded
  | .mul a b => .req (packReq a b)
  | .idleLoad x => .ctrl ((0b00 : BitVec 2) ++ x)
  | .calcShiftAdd => .ctrl 0b011
  | .calcShift => .ctrl 0b010
  | .doneHold x => .ctrl ((0b10 : BitVec 2) ++ x)
  | .state3Reserved x => .ctrl ((0b11 : BitVec 2) ++ x)
  | .shamt1Lsb v => .shamtIn v
  | .shamt1 v => .shamtIn v
  | .shamt2 v => .shamtIn v
  | .shamt3 v => .shamtIn v
  | .shamt4 v => .shamtIn v
  | .shamt5 v => .shamtIn v
  | .shamt6 v => .shamtIn v
  | .shamt7 v => .shamtIn v
  | .shamt8 v => .shamtIn v

end Sys2Proof
end

