-- ==== Sys2Proof/Config.lean ====
section
/-!
DEFINITION. What the spec leaves free: the draws (00_scope.md R14), as constants with no body, applied to the unit's own
sequence of draws (`State.drawStream`) and the number of the cycle's draws in it (`State.drawIdx`), and the one open
parameter `TRACE_FORMAT` (92_eei_decisions.md D21). Nothing can be proved about any value of them, so a statement holds
for every draw (log entries 8, 6, 16).
-/

namespace Sys2Proof

/-- The draw `d_a`: the don't-care `a_mux_sel` of a DONE cycle (R81, R142, U2). -/
opaque Config.drawASel : Nat → Nat → BitVec 1

/-- The draw `d_b`: the don't-care `b_mux_sel` of a DONE cycle (R81, R142, U2). -/
opaque Config.drawBSel : Nat → Nat → BitVec 1

/-- The draw `d_res`: the don't-care `result_mux_sel` of a DONE cycle (R81, R142, U2). -/
opaque Config.drawResSel : Nat → Nat → BitVec 1

/-- The draw `d_add`: the don't-care `add_mux_sel` of an IDLE or a DONE cycle (R81, R140, R142, U1, U2). -/
opaque Config.drawAddSel : Nat → Nat → BitVec 1

/-- The value of `req_msg` in a cycle the surroundings leave open (R90 `NOP`, R207, U7). -/
opaque Config.drawReqMsg : Nat → Nat → ReqMsg

/-- `A` after a reset cycle in the state code `2'b11` (R32; log entry 6). -/
opaque Config.drawA : Nat → Nat → Word

/-- `B` after a reset cycle in the state code `2'b11` (R32; log entry 6). -/
opaque Config.drawB : Nat → Nat → Word

/-- `R` after a reset cycle in the state code `2'b11` (R32; log entry 6). -/
opaque Config.drawR : Nat → Nat → Word

/-- `req_rdy` in a reset cycle in the state code `2'b11`: "the outputs have no defined meaning" (R203; log entry 6). -/
opaque Config.drawReqRdy : Nat → Nat → Bool

/-- `resp_en` in a reset cycle in the state code `2'b11` (R203; log entry 6). -/
opaque Config.drawRespEn : Nat → Nat → Bool

/-- `TRACE_FORMAT`: the text of the diagnostic trace, a function from (`S`, `b_lsb`) to text (R188, D21). -/
opaque Config.traceFormat : FsmCode → BitVec 1 → String

end Sys2Proof
end

