-- ==== Sys2Proof/Machine/State.lean ====
section
/-!
DEFINITION. The state of the unit (10_state.md): the four state elements, the signals of the last evaluated cycle, and
the outside world as plain data. INVENTORY.md lists every field with its rule and its reset value.
-/

namespace Sys2Proof.Machine

/-- The three FSM states (R21, R80): the type in which `2'b11` cannot be written. -/
inductive FsmState where
  | IDLE
  | CALC
  | DONE
deriving DecidableEq, Repr, Inhabited

/-- The input ports of one cycle, `{reset, req_en, resp_rdy, req_msg}` (R26, R91, R160). -/
structure Input where
  reset : Bool
  reqEn : Bool
  respRdy : Bool
  reqMsg : ReqMsg
deriving DecidableEq, Repr

/-- The outputs of one cycle (R160): the output ports of R26 and the two transfer events. -/
structure Outputs where
  reqRdy : Bool
  respEn : Bool
  respMsg : Word
  reqFire : Bool
  respFire : Bool
deriving DecidableEq, Repr

/-- The machine. `S`, `A`, `B`, `R` are the hardware's four state elements (R20, R21); every other field is the
model's own record of signals and of the surroundings (log entries 2, 8, 9, 10). -/
@[ext]
structure State where
  /-- FSM state register, raw bits (R21, R76; log entry 5). -/
  S : FsmCode
  /-- Operand-A register (R20, R22). -/
  A : Word
  /-- Operand-B register (R20, R23). -/
  B : Word
  /-- Result register (R20, R24). -/
  R : Word
  /-- The shift-amount signal, as last evaluated (R30, R100). -/
  shamt : ShamtOut
  /-- The outputs driven in the last completed cycle (R160). -/
  out : Outputs
  /-- The requests transferred since the last reset cycle, newest first (R58). -/
  accepted : List ReqMsg
  /-- The responses transferred since the last reset cycle, newest first (R58). -/
  delivered : List Word
  /-- What the surroundings drive in the coming cycles (R91, R209). -/
  inputs : List Input
  /-- Requests waiting to be run as whole MUL operations (R7, R92). -/
  mulQueue : List ReqMsg
  /-- Which sequence of draws is this unit's own (R187; log entry 8). -/
  drawStream : Nat
  /-- Which draws of its sequence the current cycle takes (R14). -/
  drawIdx : Nat
deriving DecidableEq, Repr

/-- Why the machine stops. The spec has no exception (R180); the one fault is the spec's own for a model of raw bits. -/
inductive Fault where
  /-- Raised by the operation STATE3_RESERVED, in a cycle without reset: the FSM state register holds `2'b11`, which is
  no state (R80, U6). Safe: the state is unreachable (R134) and no effect is invented for it. -/
  | reservedState (code : FsmCode)
deriving DecidableEq, Repr

/-- Why an instruction has no meaning here. No meaning of this model answers with a refusal. -/
inductive Refusal where
  /-- Raised by an arm of `exec` whose instruction has no meaning yet; no arm of this model does. Safe. -/
  | notModelled (mnemonic : String)
deriving DecidableEq, Repr

/-- The unit right after reset (R32, R202, R203): IDLE (`2'b00`, R76); `A`, `B` and `R` are unspecified by the spec and hold zero here
(DESIGN CHOICE, log entry 7); nothing is presented, recorded or waiting (log entries 2, 9, 10). -/
def State.reset : State where
  S := 0b00
  A := 0
  B := 0
  R := 0
  shamt := 8
  out := { reqRdy := false, respEn := false, respMsg := 0, reqFire := false, respFire := false }
  accepted := []
  delivered := []
  inputs := []
  mulQueue := []
  drawStream := 0
  drawIdx := 0

/-- The outcome of an operation on the unit. -/
abbrev Result := Host.Outcome State Fault Refusal

end Sys2Proof.Machine
end

