-- ==== Sys2Proof/Machine/Flags.lean ====
section
/-!
DEFINITION. The status signals (10_state.md R29), the unit's only flags: functions of `B` alone, never stored.
-/

namespace Sys2Proof.Machine

/-- The B-low-bit status: `b_lsb = B[0]` (R29). -/
def bLsb (b : Word) : BitVec 1 := b.extractLsb' 0 1

/-- The B-is-zero status, over all 32 bits: `b_zero = (B == 0)` (R29). -/
def bZero (b : Word) : Bool := b == 0

end Sys2Proof.Machine
end

