-- ==== Sys2Proof/Machine/Operands.lean ====
section
/-!
DEFINITION. Operand forms: the two-valued selects with their encodings (30_encoding.md R72 to R75), the four muxes
(41_datapath.md R111, R112, R114, R115), and where an operation finds its inputs: the words it is decoded from and
the input ports of the current cycle.
-/

namespace Sys2Proof.Machine

/-- `a_mux_sel` and `b_mux_sel`: `LOAD = 0`, `SHIFT = 1` (R28, R72, R73). -/
inductive LoadSel where
  | load
  | shift
deriving DecidableEq, Repr, Inhabited

/-- `result_mux_sel`: `ADD = 0`, `ZERO = 1` (R28, R74). -/
inductive ResultSel where
  | add
  | zero
deriving DecidableEq, Repr, Inhabited

/-- `add_mux_sel`: `ADD = 0`, `RESULT = 1` (R28, R75). -/
inductive AddSel where
  | add
  | result
deriving DecidableEq, Repr, Inhabited

/-- Encoding of R72 and R73. -/
def LoadSel.bit : LoadSel → BitVec 1
  | .load => 0
  | .shift => 1

/-- The select a bit stands for (R72, R73). -/
def LoadSel.ofBit (x : BitVec 1) : LoadSel := if x = 0 then .load else .shift

/-- Encoding of R74. -/
def ResultSel.bit : ResultSel → BitVec 1
  | .add => 0
  | .zero => 1

/-- The select a bit stands for (R74). -/
def ResultSel.ofBit (x : BitVec 1) : ResultSel := if x = 0 then .add else .zero

/-- Encoding of R75. -/
def AddSel.bit : AddSel → BitVec 1
  | .add => 0
  | .result => 1

/-- The select a bit stands for (R75). -/
def AddSel.ofBit (x : BitVec 1) : AddSel := if x = 0 then .add else .result

/-- A-mux: the request's `a` or the shifted `A` (R111). -/
def aMux (sel : LoadSel) (msg : ReqMsg) (aShifted : Word) : Word :=
  match sel with
  | .load => reqA msg
  | .shift => aShifted

/-- B-mux: the request's `b` or the shifted `B` (R112). -/
def bMux (sel : LoadSel) (msg : ReqMsg) (bShifted : Word) : Word :=
  match sel with
  | .load => reqB msg
  | .shift => bShifted

/-- Add-mux: the fresh sum or the unmodified result (R114). -/
def addMux (sel : AddSel) (sum r : Word) : Word :=
  match sel with
  | .add => sum
  | .result => r

/-- Result-mux: the constant zero or the add-mux output (R115). -/
def resultMux (sel : ResultSel) (addOut : Word) : Word :=
  match sel with
  | .zero => 0
  | .add => addOut

/-- The calculator's input, `B[7:0]` (R100). -/
def shamtIn (b : Word) : ShamtIn := b.extractLsb' 0 8

/-- The word the cycle's operation is decoded from, `{S[1:0], b_lsb}` (R79). -/
def ctrlWord (code : FsmCode) (b : Word) : CtrlWord := code ++ bLsb b

/-- The input ports of a cycle no command drives: `req_en = 0`, `resp_rdy = 0`, `reset = 0`, `req_msg` a draw
(R90; log entry 2). -/
def Input.undriven (stream idx : Nat) : Input :=
  { reset := false, reqEn := false, respRdy := false, reqMsg := Config.drawReqMsg stream idx }

/-- The input ports of the current cycle (R91). -/
def State.nowInput (s : State) : Input :=
  match s.inputs with
  | v :: _ => v
  | [] => Input.undriven s.drawStream s.drawIdx

/-- One cycle's inputs as the 67-bit vector `{reset, req_en, resp_rdy, req_msg[63:0]}` (R91). -/
def Input.vector (v : Input) : BitVec 67 :=
  BitVec.ofBool v.reset ++ BitVec.ofBool v.reqEn ++ BitVec.ofBool v.respRdy ++ v.reqMsg

/-- The inputs a 67-bit vector stands for (R91). -/
def Input.ofVector (x : BitVec 67) : Input :=
  { reset := x.getLsbD 66, reqEn := x.getLsbD 65, respRdy := x.getLsbD 64, reqMsg := x.extractLsb' 0 64 }

end Sys2Proof.Machine
end

