-- ==== Sys2Proof/Machine/Ops.lean ====
section
/-!
DEFINITION. The shared operations: the shift-amount calculator (40_shift_amount.md), the datapath (41_datapath.md),
the FSM's transition and output functions (42_control_fsm.md), the cycle boundary, and `Step` (43_unit.md R160).
The unit raises no exception (60_exceptions.md R180, R185): the one event that redirects it is reset, `afterReset`.
-/

namespace Sys2Proof.Machine

/-! ### Shift-amount calculator -/

/-- `ctz8` from bit `8 - fuel` upwards: the number of consecutive zero bits (R16). -/
def ctzFrom : Nat → ShamtIn → Nat
  | 0, _ => 0
  | fuel + 1, v => if v.getLsbD (7 - fuel) then 0 else 1 + ctzFrom fuel v

/-- The number of consecutive zero bits of `v` from bit 0 upwards, 8 when `v = 0` (R16). -/
def ctz8 (v : ShamtIn) : Nat := ctzFrom 8 v

/-- `Shamt` (R100): 1 when the low bit is set, otherwise the trailing-zero count, 1 to 8. -/
def shamtOf (v : ShamtIn) : ShamtOut := if v.getLsbD 0 then 1 else BitVec.ofNat 4 (ctz8 v)

/-- The shift amount of a cycle, `Shamt(B[7:0])` (R100). -/
def shiftAmount (b : Word) : ShamtOut := shamtOf (shamtIn b)

/-! ### Datapath -/

/-- `a_shifted = (A << shamt) mod 2^32` (R110). -/
def aShifted (a : Word) (k : ShamtOut) : Word := a <<< k.toNat

/-- `b_shifted = B >> shamt`, zero fill (R110). -/
def bShifted (b : Word) (k : ShamtOut) : Word := b >>> k.toNat

/-- `sum = (A + R) mod 2^32`, of the current stored values (R113). -/
def adderSum (a r : Word) : Word := a + r

/-- Every signal the FSM drives in one cycle: the handshake outputs and the control bundle (R28, R77). -/
structure Control where
  reqRdy : Bool
  respEn : Bool
  aSel : LoadSel
  bSel : LoadSel
  resSel : ResultSel
  resEn : Bool
  addSel : AddSel
deriving DecidableEq, Repr

/-- The control word `CW`: `{req_rdy, resp_en, a_mux_sel, b_mux_sel, result_mux_sel, result_reg_en, add_mux_sel}`
(R77). -/
def Control.word (c : Control) : BitVec 7 :=
  BitVec.ofBool c.reqRdy ++ BitVec.ofBool c.respEn ++ c.aSel.bit ++ c.bSel.bit ++ c.resSel.bit
    ++ BitVec.ofBool c.resEn ++ c.addSel.bit

/-- The three data registers. -/
structure DataRegs where
  a : Word
  b : Word
  r : Word
deriving DecidableEq, Repr

/-- `DatapathNext` (R119): the next register values from the current ones, the request message and the bundle. -/
def datapathNext (d : DataRegs) (msg : ReqMsg) (c : Control) : DataRegs :=
  let k := shiftAmount d.b
  { a := aMux c.aSel msg (aShifted d.a k)
    b := bMux c.bSel msg (bShifted d.b k)
    r := if c.resEn then resultMux c.resSel (addMux c.addSel (adderSum d.a d.r) d.r) else d.r }

/-! ### Control FSM -/

/-- The don't-care selects of one cycle (R81, R160 `Draws`). -/
structure Draws where
  dA : LoadSel
  dB : LoadSel
  dRes : ResultSel
  dAdd : AddSel
deriving DecidableEq, Repr

/-- The draws numbered `idx` of one unit's sequence (R81, R187). -/
def drawsAt (stream idx : Nat) : Draws :=
  { dA := LoadSel.ofBit (Config.drawASel stream idx)
    dB := LoadSel.ofBit (Config.drawBSel stream idx)
    dRes := ResultSel.ofBit (Config.drawResSel stream idx)
    dAdd := AddSel.ofBit (Config.drawAddSel stream idx) }

/-- `Outputs` (R143, R140 to R142). -/
def fsmOutputs (q : FsmState) (lsb : BitVec 1) (respRdy : Bool) (d : Draws) : Control :=
  match q with
  | .IDLE =>
    { reqRdy := true, respEn := false, aSel := .load, bSel := .load, resSel := .zero, resEn := true, addSel := d.dAdd }
  | .CALC =>
    { reqRdy := false, respEn := false, aSel := .shift, bSel := .shift, resSel := .add, resEn := true
      addSel := if lsb = 1 then .add else .result }
  | .DONE =>
    { reqRdy := false, respEn := respRdy, aSel := d.dA, bSel := d.dB, resSel := d.dRes, resEn := false
      addSel := d.dAdd }

/-- Reset dominates: `S_next` is IDLE in a cycle with `reset = 1`, whatever it would be otherwise (R130, R184). The
one event that redirects the unit; it saves nothing (R185). -/
def afterReset (reset : Bool) (q : FsmState) : FsmState := if reset then .IDLE else q

/-- The transition table (R134, from R130 to R133). -/
def fsmNext (q : FsmState) (reset reqEn zero respRdy : Bool) : FsmState :=
  afterReset reset <| match q with
  | .IDLE => if reqEn then .CALC else .IDLE
  | .CALC => if zero then .DONE else .CALC
  | .DONE => if respRdy then .IDLE else .DONE

/-- The encoding of the FSM states: `IDLE = 2'b00`, `CALC = 2'b01`, `DONE = 2'b10` (R76). -/
def FsmState.code : FsmState → FsmCode
  | .IDLE => 0b00
  | .CALC => 0b01
  | .DONE => 0b10

/-- The state a code stands for; `2'b11` stands for none (R76, R80). -/
def FsmState.ofCode (code : FsmCode) : Option FsmState :=
  if code = 0b00 then some .IDLE
  else if code = 0b01 then some .CALC
  else if code = 0b10 then some .DONE
  else none

/-! ### `Step` -/

/-- What one `Step` gives: the outputs of the cycle and the four state elements of the next (R160). -/
structure StepResult where
  out : Outputs
  next : FsmState
  regs : DataRegs
deriving DecidableEq, Repr

/-- The outputs of a cycle in which the unit drives `req_rdy` and `resp_en` as given, and `resp_msg = R` (R26, R27). -/
def outputsOf (v : Input) (reqRdy respEn : Bool) (r : Word) : Outputs :=
  { reqRdy := reqRdy, respEn := respEn, respMsg := r
    reqFire := v.reqEn && reqRdy, respFire := respEn && v.respRdy }

/-- `Step`, the complete behaviour of one cycle (R160), as the spec writes it: status, control, datapath, boundary,
next state. -/
def unitStep (q : FsmState) (d : DataRegs) (v : Input) (w : Draws) : StepResult :=
  let c := fsmOutputs q (bLsb d.b) v.respRdy w
  let o := outputsOf v c.reqRdy c.respEn d.r
  { out := o
    next := afterReset v.reset <| match q with
      | .IDLE => if o.reqFire then .CALC else .IDLE
      | .CALC => if bZero d.b then .DONE else .CALC
      | .DONE => if o.respFire then .IDLE else .DONE
    regs := datapathNext d v.reqMsg c }

/-! ### The cycle boundary -/

/-- The shift-amount signal takes a value; nothing else changes (R103). -/
def State.setShamt (s : State) (k : ShamtOut) : State := { s with shamt := k }

/-- The surroundings drive other input vectors in the coming cycles. -/
def State.withInputs (s : State) (l : List Input) : State := { s with inputs := l }

/-- The surroundings drive exactly these ports in the current cycle, and no request waits to be run as a whole. -/
def State.onlyDriven (s : State) (v : Input) : State := { s with inputs := [v], mulQueue := [] }

/-- The coming cycles take other draws, of this sequence or of another. -/
def State.withDraws (s : State) (stream n : Nat) : State := { s with drawStream := stream, drawIdx := n }

/-- The end of a cycle: the four state elements take their next values together (R12, R116), the cycle's outputs and
transfers are recorded (a reset cycle restarts the count of transfers, R58), and the surroundings and the draws move
on to the next cycle. -/
def State.commit (s : State) (o : Outputs) (code : FsmCode) (d : DataRegs) : State :=
  { s with
    S := code, A := d.a, B := d.b, R := d.r, out := o
    accepted := if s.nowInput.reset then [] else if o.reqFire then s.nowInput.reqMsg :: s.accepted else s.accepted
    delivered := if s.nowInput.reset then [] else if o.respFire then o.respMsg :: s.delivered else s.delivered
    inputs := s.inputs.tail
    drawIdx := s.drawIdx + 1 }

/-- The end of a cycle of one of the four operations of R150 to R153, which drives `req_rdy` and `resp_en` as given. -/
def State.endCycle (s : State) (reqRdy respEn : Bool) (q : FsmState) (a b r : Word) : State :=
  s.commit (outputsOf s.nowInput reqRdy respEn s.R) q.code { a := a, b := b, r := r }

/-- A cycle in the state code `2'b11`: a fault that names it (R80, U6); under reset the next state is IDLE whatever the
current one is (R130), and the outputs and the data registers are draws (R32, R203; log entry 6). -/
def State.reservedCycle (s : State) : Result :=
  if s.nowInput.reset then
    .next (s.commit
      (outputsOf s.nowInput (Config.drawReqRdy s.drawStream s.drawIdx)
        (Config.drawRespEn s.drawStream s.drawIdx) s.R)
      FsmState.IDLE.code
      { a := Config.drawA s.drawStream s.drawIdx, b := Config.drawB s.drawStream s.drawIdx
        r := Config.drawR s.drawStream s.drawIdx })
  else .fault (.reservedState s.S)

/-- The state after one clock cycle in the FSM state `q`, as `Step` gives it on the current inputs and draws (R160). -/
def State.cycleFrom (q : FsmState) (s : State) : State :=
  let x := unitStep q { a := s.A, b := s.B, r := s.R } s.nowInput (drawsAt s.drawStream s.drawIdx)
  (s.setShamt (shiftAmount s.B)).commit x.out x.next.code x.regs

/-- One clock cycle of the unit as `Step` gives it (R160). -/
def State.tick (s : State) : Result :=
  match FsmState.ofCode s.S with
  | some q => .next (s.cycleFrom q)
  | none => (s.setShamt (shiftAmount s.B)).reservedCycle

end Sys2Proof.Machine
end

