-- ==== Sys2Proof/Machine/Control.lean ====
section
/-!
DEFINITION. The four cycle-level operations and the reserved row (42_control_fsm.md R150 to R153, 30_encoding.md R80),
each written from its own pseudocode. That they are what `Step` (43_unit.md R160) does in the states they are decoded
in is a statement about them, not their definition.
-/

namespace Sys2Proof.Machine

/-- `IDLE_LOAD`: load both operands, clear the result, accept a request (R150). -/
def execIdleLoad (_bLsb : BitVec 1) (s : State) : Result :=
  let v := s.nowInput
  .next (s.endCycle true false (afterReset v.reset (if v.reqEn then .CALC else .IDLE)) (reqA v.reqMsg) (reqB v.reqMsg) 0)

/-- `CALC_SHIFT_ADD`: accumulate `A` and shift by one (R151). -/
def execCalcShiftAdd (s : State) : Result :=
  let v := s.nowInput
  .next (s.endCycle false false (afterReset v.reset .CALC) (s.A <<< 1) (s.B >>> 1) (s.A + s.R))

/-- `CALC_SHIFT`: skip zero bits, or detect completion (R152). -/
def execCalcShift (s : State) : Result :=
  let v := s.nowInput
  let k := shiftAmount s.B
  .next (s.endCycle false false (afterReset v.reset (if s.B = 0 then .DONE else .CALC)) (s.A <<< k.toNat)
    (s.B >>> k.toNat) s.R)

/-- `DONE_HOLD`: hold the product until it is taken; `A` and `B` take what the draws pick (R153). -/
def execDoneHold (_bLsb : BitVec 1) (s : State) : Result :=
  let v := s.nowInput
  let k := shiftAmount s.B
  let w := drawsAt s.drawStream s.drawIdx
  .next (s.endCycle false v.respRdy (afterReset v.reset (if v.respRdy then .IDLE else .DONE))
    (aMux w.dA v.reqMsg (s.A <<< k.toNat)) (bMux w.dB v.reqMsg (s.B >>> k.toNat)) s.R)

/-- `STATE3_RESERVED`: the code is no state (R80); only reset leaves it (R130). -/
def execState3Reserved (_bLsb : BitVec 1) (s : State) : Result := s.reservedCycle

end Sys2Proof.Machine
end

