-- ==== Sys2Proof/Machine/Mul.lean ====
section
/-!
DEFINITION. MUL, the transaction-level operation (43_unit.md R161): from the request transfer to the response transfer,
as many clock cycles as that takes. The requester sends the operands until they transfer and the consumer receives the
response (R92 `SEND` together with `RECV`). Input vectors the surroundings have listed for the coming cycles still
apply, so a consumer may stall and a reset may abandon the operation (log entry 4).
-/

namespace Sys2Proof.Machine

/-- What the surroundings drive in the current cycle of a MUL: the listed vector, or, where nothing is listed, a
consumer that is ready to receive (R92; log entry 4). -/
def State.mulInput (s : State) : Input :=
  match s.inputs with
  | v :: _ => v
  | [] => { reset := false, reqEn := false, respRdy := true, reqMsg := Config.drawReqMsg s.drawStream s.drawIdx }

/-- The state with the current cycle's input ports driven as given. -/
def State.drivenBy (s : State) (v : Input) : State := s.withInputs (v :: s.inputs.tail)

/-- The requester's `SEND`: it presents the message, and pauses in a reset cycle (R90). -/
def Input.sending (v : Input) (m : ReqMsg) : Input :=
  if v.reset then v else { v with reqEn := true, reqMsg := m }

/-- From the request transfer on: cycles until the response transfers, or a reset abandons the operation (R161, R201),
at most `fuel` of them. -/
def mulReceive : Nat → State → Result
  | 0, s => .next s
  | fuel + 1, s =>
    match (s.drivenBy s.mulInput).tick with
    | .next t => if s.mulInput.reset || t.out.respFire then .next t else mulReceive fuel t
    | .fault r => .fault r
    | .refused r => .refused r

/-- Cycles from the request transfer to the response transfer, at most: 33 of CALC (R167), one of DONE, and those the
listed vectors hold the unit in DONE. -/
def receiveCycles (s : State) : Nat := s.inputs.length + 34

/-- Cycles until the request transfers (R90 `SEND`), at most `fuel` of them, and then those of `mulReceive`. -/
def mulSend (m : ReqMsg) : Nat → State → Result
  | 0, s => .next s
  | fuel + 1, s =>
    match (s.drivenBy (s.mulInput.sending m)).tick with
    | .next t =>
      if s.mulInput.reset then mulSend m fuel t
      else if t.out.reqFire then mulReceive (receiveCycles t) t
      else mulSend m fuel t
    | .fault r => .fault r
    | .refused r => .refused r

/-- Cycles until the request transfers, at most: those of `receiveCycles` for an earlier multiplication, and the
transfer cycle itself. -/
def sendCycles (s : State) : Nat := s.inputs.length + 35

/-- `MUL a, b` (R161). -/
def execMul (a b : Word) (s : State) : Result := mulSend (packReq a b) (sendCycles s) s

end Sys2Proof.Machine
end

