-- ==== Sys2Proof/Machine/ShiftAmount.lean ====
section
/-!
DEFINITION. The rows of the shift-amount calculator's truth table (40_shift_amount.md R101). A row drives the
shift-amount signal with its value and writes no state element (R103); it takes no cycle of its own: in every cycle the
row that `B[7:0]` selects is evaluated before the cycle's control row (log entry 13).
-/

namespace Sys2Proof.Machine

/-- `SHAMT_1_LSB`: `xxxxxxx1` gives 1 (R101, R100). -/
def execShamt1Lsb (_input : ShamtIn) (s : State) : Result := .next (s.setShamt 1)

/-- `SHAMT_1`: `xxxxxx10` gives 1 (R101). -/
def execShamt1 (_input : ShamtIn) (s : State) : Result := .next (s.setShamt 1)

/-- `SHAMT_2`: `xxxxx100` gives 2 (R101). -/
def execShamt2 (_input : ShamtIn) (s : State) : Result := .next (s.setShamt 2)

/-- `SHAMT_3`: `xxxx1000` gives 3 (R101). -/
def execShamt3 (_input : ShamtIn) (s : State) : Result := .next (s.setShamt 3)

/-- `SHAMT_4`: `xxx10000` gives 4 (R101). -/
def execShamt4 (_input : ShamtIn) (s : State) : Result := .next (s.setShamt 4)

/-- `SHAMT_5`: `xx100000` gives 5 (R101). -/
def execShamt5 (_input : ShamtIn) (s : State) : Result := .next (s.setShamt 5)

/-- `SHAMT_6`: `x1000000` gives 6 (R101). -/
def execShamt6 (_input : ShamtIn) (s : State) : Result := .next (s.setShamt 6)

/-- `SHAMT_7`: `10000000` gives 7 (R101). -/
def execShamt7 (_input : ShamtIn) (s : State) : Result := .next (s.setShamt 7)

/-- `SHAMT_8`: `00000000` gives 8 (R101). -/
def execShamt8 (_input : ShamtIn) (s : State) : Result := .next (s.setShamt 8)

end Sys2Proof.Machine
end

