-- ==== Sys2Proof/Machine/Dispatch.lean ====
section
/-!
DEFINITION. One arm per row of spec/opcode_table.json.
-/

namespace Sys2Proof.Machine

/-- The meaning of an operation. -/
def exec (i : Instr) (s : State) : Host.Outcome State Fault Refusal :=
  match i with
  -- the transaction-level operation
  | .mul a b => Sys2Proof.Machine.execMul a b s
  -- the cycle-level operations
  | .idleLoad x => Sys2Proof.Machine.execIdleLoad x s
  | .calcShiftAdd => Sys2Proof.Machine.execCalcShiftAdd s
  | .calcShift => Sys2Proof.Machine.execCalcShift s
  | .doneHold x => Sys2Proof.Machine.execDoneHold x s
  | .state3Reserved x => Sys2Proof.Machine.execState3Reserved x s
  -- the rows of the shift-amount calculator
  | .shamt1Lsb v => Sys2Proof.Machine.execShamt1Lsb v s
  | .shamt1 v => Sys2Proof.Machine.execShamt1 v s
  | .shamt2 v => Sys2Proof.Machine.execShamt2 v s
  | .shamt3 v => Sys2Proof.Machine.execShamt3 v s
  | .shamt4 v => Sys2Proof.Machine.execShamt4 v s
  | .shamt5 v => Sys2Proof.Machine.execShamt5 v s
  | .shamt6 v => Sys2Proof.Machine.execShamt6 v s
  | .shamt7 v => Sys2Proof.Machine.execShamt7 v s
  | .shamt8 v => Sys2Proof.Machine.execShamt8 v s

end Sys2Proof.Machine
end

