-- ==== Sys2Proof/Machine/Fetch.lean ====
section
/-!
DEFINITION. Which operations a step runs, and how a word is put where the next step finds it. The unit fetches no
program (20_memory.md R60): a cycle's rows are selected by the state registers (30_encoding.md R79,
40_shift_amount.md R101), a whole MUL by the requests that wait (log entry 3).
-/

namespace Sys2Proof.Machine

/-- The calculator row of the current cycle (R100, R101). -/
def State.shamtRow (s : State) : Instr := decodeShamt (shamtIn s.B)

/-- The control row of the current cycle (R79). -/
def State.ctrlRow (s : State) : Instr := decodeCtrl (ctrlWord s.S s.B)

/-- Two operations one after the other. -/
def Result.andThen (r : Result) (f : State → Result) : Result :=
  match r with
  | .next t => f t
  | .fault x => .fault x
  | .refused x => .refused x

/-- One clock cycle (R160, R17): the calculator's row, then the control row, both selected by the registers as they
stand at the start of the cycle. -/
def State.runCycle (s : State) : Result := Result.andThen (exec s.shamtRow s) (exec s.ctrlRow)

/-- One step: a waiting MUL as a whole, otherwise one clock cycle (log entry 1). -/
def State.runNext (s : State) : Result :=
  match s.mulQueue with
  | m :: rest => exec (decodeReq m) { s with mulQueue := rest }
  | [] => s.runCycle

/-- Put a word where the next step runs it: a request message at the head of the waiting requests; a control word into
`S` and `B[0]`; a calculator input into `B[7:0]` (log entry 3). -/
def State.place (s : State) : Encoded → State
  | .req m => { s with mulQueue := m :: s.mulQueue }
  | .ctrl w => { s with mulQueue := [], S := w.extractLsb' 1 2, B := s.B.extractLsb' 1 31 ++ w.extractLsb' 0 1 }
  | .shamtIn v => { s with mulQueue := [], B := s.B.extractLsb' 8 24 ++ v }

end Sys2Proof.Machine
end

