-- ==== Sys2Proof/Machine/Step.lean ====
section
/-!
DEFINITION. The step of the machine, and the placing of a table word for the next step.
-/

namespace Sys2Proof.Machine

/-- One step: one clock cycle of the unit (R160), or one whole MUL where a request waits to be run as one (R161). -/
def step (s : State) : Host.Outcome State Fault Refusal := s.runNext

/-- The state whose next step runs the table word `w` of `nbits` bits; unchanged where the bits are no word of the
table. -/
def State.withFetchWord (s : State) (nbits w : Nat) : State :=
  match classify nbits w with
  | .ok e => s.place e
  | .error _ => s

end Sys2Proof.Machine
end

