-- ==== Sys2Proof/Machine/Run.lean ====
section
/-!
DEFINITION. Several steps of one unit, and several units side by side.
-/

namespace Sys2Proof.Machine

/-- `n` steps, stopping at the first fault or refusal. -/
def runSteps : Nat → State → Result
  | 0, s => .next s
  | n + 1, s => Result.andThen (step s) (runSteps n)

/-- Several units right after reset, each with draws of its own: the unit at place `k` takes the sequence `k`
(60_exceptions.md R187; log entry 8). -/
def Units.reset (n : Nat) : List State := (List.range n).map fun k => { State.reset with drawStream := k }

/-- No two of the units take their draws from the same sequence (R187). -/
def Units.OwnDraws (us : List State) : Prop := (us.map State.drawStream).Nodup

/-- One cycle of several independent units: each runs its own `Step` (43_unit.md R160) on its own state, ports and
draws, and leaves a waiting whole MUL waiting (R187; log entry 21). -/
def Units.step : List State → Host.Outcome (List State) Fault Refusal
  | [] => .next []
  | u :: us =>
    match u.runCycle, Units.step us with
    | .next t, .next ts => .next (t :: ts)
    | .next _, .fault r => .fault r
    | .next _, .refused r => .refused r
    | .fault r, _ => .fault r
    | .refused r, _ => .refused r

end Sys2Proof.Machine
end

