-- ==== Sys2Proof/Machine/Stimulus.lean ====
section
/-!
DEFINITION. Stimulus scripts, the spec's "programs" (30_encoding.md R90 to R92): two command streams, what they drive
in each cycle, and how they move on with the unit's handshakes (log entry 20).
-/

namespace Sys2Proof.Machine

/-- Commands of the requester stream (R90). -/
inductive RequesterCmd where
  | send (a b : Word)
  | nop (n : Nat)
deriving DecidableEq, Repr

/-- Commands of the consumer stream (R90). -/
inductive ConsumerCmd where
  | recv (v : Word)
  | stall (n : Nat)
deriving DecidableEq, Repr

/-- A script: `RESET n`, the two streams, and the cycles of the `ASSERT_RESET` lines (R90). -/
structure Script where
  resetCycles : Nat
  requester : List RequesterCmd
  consumer : List ConsumerCmd
  assertResetAt : List Nat
deriving DecidableEq, Repr

/-- One cycle's work of the requester: present a message until it transfers, or present nothing. -/
inductive RequesterItem where
  | present (m : ReqMsg)
  | pause
deriving DecidableEq, Repr

/-- One cycle's work of the consumer: be ready until a response transfers, or not be ready. -/
inductive ConsumerItem where
  | take (v : Word)
  | pause
deriving DecidableEq, Repr

/-- The expansion of R90, per cycle. -/
def RequesterCmd.items : RequesterCmd → List RequesterItem
  | .send a b => [.present (packReq a b)]
  | .nop n => List.replicate n .pause

/-- The expansion of R90, per cycle. -/
def ConsumerCmd.items : ConsumerCmd → List ConsumerItem
  | .recv v => [.take v]
  | .stall n => List.replicate n .pause

/-- A script in progress against a unit. `cycle` counts from the first cycle after the `RESET` lines; a `RECV` whose
response is not the expected one is recorded, expected value first. -/
structure Bench where
  unit : State
  resetLeft : Nat
  requester : List RequesterItem
  consumer : List ConsumerItem
  assertResetAt : List Nat
  cycle : Nat
  mismatches : List (Word × Word)
deriving DecidableEq, Repr

/-- A script about to start. -/
def Script.start (p : Script) (unit : State) : Bench :=
  { unit := unit, resetLeft := p.resetCycles, requester := p.requester.flatMap RequesterCmd.items
    consumer := p.consumer.flatMap ConsumerCmd.items, assertResetAt := p.assertResetAt, cycle := 0, mismatches := [] }

/-- `MUL a, b -> v`: `SEND a, b` together with `RECV v` (R92). -/
def Script.mul (a b v : Word) : Script :=
  { resetCycles := 0, requester := [.send a b], consumer := [.recv v], assertResetAt := [] }

/-- Whether the current cycle is a reset cycle of the script. -/
def Bench.resetting (b : Bench) : Bool := 0 < b.resetLeft || b.assertResetAt.contains b.cycle

/-- What the script drives in the current cycle (R90). In a reset cycle it drives no handshake. -/
def Bench.drive (b : Bench) : Input :=
  let free := Input.undriven b.unit.drawStream b.unit.drawIdx
  if b.resetting then { free with reset := true }
  else
    let v := match b.requester with
      | .present m :: _ => { free with reqEn := true, reqMsg := m }
      | .pause :: _ => free
      | [] => free
    match b.consumer with
    | .take _ :: _ => { v with respRdy := true }
    | .pause :: _ => v
    | [] => v

/-- The requester's stream after a cycle: a message stays until it transfers (R90). -/
def advanceRequester (l : List RequesterItem) (o : Outputs) : List RequesterItem :=
  match l with
  | .present m :: rest => if o.reqFire then rest else .present m :: rest
  | .pause :: rest => rest
  | [] => []

/-- The consumer's stream after a cycle: `RECV` stays until a response transfers (R90). -/
def advanceConsumer (l : List ConsumerItem) (o : Outputs) : List ConsumerItem :=
  match l with
  | .take v :: rest => if o.respFire then rest else .take v :: rest
  | .pause :: rest => rest
  | [] => []

/-- The mismatch, if any, that a cycle shows: `resp_msg` at the transfer must equal the value of `RECV` (R90). -/
def newMismatch (l : List ConsumerItem) (o : Outputs) : List (Word × Word) :=
  match l with
  | .take v :: _ => if o.respFire && o.respMsg != v then [(v, o.respMsg)] else []
  | .pause :: _ => []
  | [] => []

/-- The script after a cycle that left the unit in `t`: in a reset cycle the streams pause (R90). -/
def Bench.advance (b : Bench) (t : State) : Bench :=
  if 0 < b.resetLeft then { b with unit := t, resetLeft := b.resetLeft - 1 }
  else if b.assertResetAt.contains b.cycle then { b with unit := t, cycle := b.cycle + 1 }
  else
    { b with
      unit := t
      requester := advanceRequester b.requester t.out
      consumer := advanceConsumer b.consumer t.out
      cycle := b.cycle + 1
      mismatches := newMismatch b.consumer t.out ++ b.mismatches }

/-- One cycle of a script. -/
def Bench.step (b : Bench) : Host.Outcome Bench Fault Refusal :=
  match Sys2Proof.Machine.step (b.unit.onlyDriven b.drive) with
  | .next t => .next (b.advance t)
  | .fault r => .fault r
  | .refused r => .refused r

/-- `n` cycles of a script. -/
def Bench.run : Nat → Bench → Host.Outcome Bench Fault Refusal
  | 0, b => .next b
  | n + 1, b =>
    match b.step with
    | .next c => c.run n
    | .fault r => .fault r
    | .refused r => .refused r

end Sys2Proof.Machine
end

