-- ==== Sys2Proof/Machine/Timing.lean ====
section
/-!
DEFINITION. The cycle counts of a multiplication (43_unit.md R164): behaviour, not a readable counter (R189).
-/

namespace Sys2Proof.Machine

/-- The recursion of `steps` (R164), for at most `fuel` shifts. -/
def stepsWithin : Nat → Word → Nat
  | 0, _ => 0
  | fuel + 1, b => if b = 0 then 0 else 1 + stepsWithin fuel (b >>> (shiftAmount b).toNat)

/-- `steps(b)`: the number of CALC cycles with `B ≠ 0` in a multiplication by `b` (R164). Every shift takes away at
least one of the 32 bits (R163). -/
def steps (b : Word) : Nat := stepsWithin 32 b

/-- The bits of a word, bit 0 first (R10). -/
def bitsOf (b : Word) : List Bool := (List.range 32).map b.getLsbD

/-- The number of bits that are 1. -/
def popcount (b : Word) : Nat := (bitsOf b).count true

/-- The lengths of the runs of zeros that end at a 1, `run` zeros having been read. -/
def zeroRunsFrom : Nat → List Bool → List Nat
  | _, [] => []
  | run, false :: rest => zeroRunsFrom (run + 1) rest
  | 0, true :: rest => zeroRunsFrom 0 rest
  | run + 1, true :: rest => (run + 1) :: zeroRunsFrom 0 rest

/-- The lengths of the maximal runs of zero bits below the most-significant set bit (R164). -/
def zeroRuns (b : Word) : List Nat := zeroRunsFrom 0 (bitsOf b)

/-- The closed form of R164: `popcount(b) + Σ ceil(z_i / 8)`. -/
def stepsClosed (b : Word) : Nat := popcount b + ((zeroRuns b).map fun z => (z + 7) / 8).sum

end Sys2Proof.Machine
end

