-- ==== Sys2Proof/Machine/Trace.lean ====
section
/-!
DEFINITION. The diagnostic trace (60_exceptions.md R188): a report that reads state and writes none. Its content is the
spec's; its text is the open parameter `TRACE_FORMAT` (D21, log entry 16).
-/

namespace Sys2Proof.Machine

/-- What the trace says of a CALC cycle (R188). -/
inductive CalcKind where
  | shiftAndAdd
  | shiftOnly
deriving DecidableEq, Repr

/-- The content of a report: the FSM state tag and, in CALC, the kind of the current cycle (R188). -/
structure TraceReport where
  tag : FsmCode
  kind : Option CalcKind
deriving DecidableEq, Repr

/-- The report of the current cycle (R188). -/
def State.traceReport (s : State) : TraceReport :=
  { tag := s.S
    kind := if s.S = FsmState.CALC.code then some (if bLsb s.B = 1 then .shiftAndAdd else .shiftOnly) else none }

/-- The text of the report (R188, D21). -/
def State.traceText (s : State) : String := Config.traceFormat s.S (bLsb s.B)

end Sys2Proof.Machine
end

