-- ==== Sys2Proof/Safety.lean ====
section
/-!
DEFINITION. The terms statements use: which states are the unit's, what a request is owed, the invariant of the
boundary, the duties of the surroundings, and when two states look the same from outside.
-/

namespace Sys2Proof.Machine

/-- The FSM state register holds one of the three states (R21, R80). -/
abbrev State.Legal (s : State) : Prop := s.S ≠ 0b11

/-- The response a request is owed: `(a * b) mod 2^32` (R161). -/
def product (m : ReqMsg) : Word := reqA m * reqB m

/-- The loop invariant together with the order of transfers (R57, R58, R162, R165): each response transferred is the
product of its request; in CALC and DONE exactly the newest request is unanswered; in CALC `R + A * B` is its product
modulo 2^32, and in DONE `R` is. -/
def State.Accounted (s : State) : Prop :=
  match FsmState.ofCode s.S with
  | some .IDLE => s.delivered = s.accepted.map product
  | some .CALC =>
    ∃ m rest, s.accepted = m :: rest ∧ s.delivered = rest.map product ∧ s.R + s.A * s.B = product m
  | some .DONE => ∃ m rest, s.accepted = m :: rest ∧ s.delivered = rest.map product ∧ s.R = product m
  | none => False

/-- The duty of R204 and R209: no handshake in a cycle with `reset = 1`. -/
abbrev Input.HonoursDuty (v : Input) : Prop := v.reset = true → v.reqEn = false ∧ v.respRdy = false

/-- The next step is one clock cycle: no request waits to be run as a whole MUL (log entry 1). -/
abbrev State.Clocked (s : State) : Prop := s.mulQueue = []

/-- No reset in the coming `n` cycles (cycles with nothing listed have none). -/
def State.NoResetFor (s : State) (n : Nat) : Prop := ∀ k v, k < n → s.inputs[k]? = some v → v.reset = false

/-- A request `{a, b}` transfers in the current cycle (R26, R131, R161). -/
structure State.Accepts (s : State) (a b : Word) : Prop where
  clocked : s.Clocked
  idle : s.S = FsmState.IDLE.code
  noReset : s.nowInput.reset = false
  presented : s.nowInput.reqEn = true
  message : s.nowInput.reqMsg = packReq a b

/-- What a cycle of a control row leaves alone or moves on, whichever row it is: the waiting requests, the recorded
shift amount, the surroundings' list and the draws. -/
structure CycleFrame (s t : State) : Prop where
  mulQueue : t.mulQueue = s.mulQueue
  shamt : t.shamt = s.shamt
  inputs : t.inputs = s.inputs.tail
  drawStream : t.drawStream = s.drawStream
  drawIdx : t.drawIdx = s.drawIdx + 1

/-- Two states that differ at most in `A`, `B` and the recorded shift amount: all that the boundary can observe is the
same (R31). -/
structure SameOutside (s t : State) : Prop where
  S : t.S = s.S
  R : t.R = s.R
  out : t.out = s.out
  accepted : t.accepted = s.accepted
  delivered : t.delivered = s.delivered
  inputs : t.inputs = s.inputs
  mulQueue : t.mulQueue = s.mulQueue
  drawStream : t.drawStream = s.drawStream
  drawIdx : t.drawIdx = s.drawIdx

end Sys2Proof.Machine
end

