-- ==== Sys2Proof/Certificates/Slice0/Obligations.lean ====
section
/-!
DEFINITION. The statements for the provers. Each docstring names the rule it formalises. OBLIGATIONS.json lists them.
-/

open Sys2Proof Sys2Proof.Machine

/-! ### Encodings -/

/-- R70, R79, R84, R101: encoding loses nothing. -/
def Obligations.DecodeOfEncode : Prop :=
  ∀ i : Instr, i.WellFormed = true → decode (encode i) = i

/-- R79, R84, R101: every word of every format is the word of exactly the operation it decodes to. -/
def Obligations.EncodeOfDecode : Prop :=
  ∀ e : Encoded, (decode e).WellFormed = true ∧ encode (decode e) = e

/-- R70, R84: every request message is MUL, and its operands are its two halves. -/
def Obligations.RequestIsMulOfItsHalves : Prop :=
  ∀ m : ReqMsg, ∃ a b : Word, decode (.req m) = .mul a b ∧ a.toNat = m.toNat / 2 ^ 32 ∧ b.toNat = m.toNat % 2 ^ 32

/-- R79: the decode map, row by row. The rows' masks cover every word. -/
def Obligations.ControlRowsByMask : Prop :=
  ∀ w : CtrlWord,
    (w &&& 0b110 = 0b000 → decode (.ctrl w) = .idleLoad (w.extractLsb' 0 1)) ∧
    (w &&& 0b111 = 0b011 → decode (.ctrl w) = .calcShiftAdd) ∧
    (w &&& 0b111 = 0b010 → decode (.ctrl w) = .calcShift) ∧
    (w &&& 0b110 = 0b100 → decode (.ctrl w) = .doneHold (w.extractLsb' 0 1)) ∧
    (w &&& 0b110 = 0b110 → decode (.ctrl w) = .state3Reserved (w.extractLsb' 0 1)) ∧
    (w &&& 0b110 = 0b000 ∨ w &&& 0b111 = 0b011 ∨ w &&& 0b111 = 0b010 ∨ w &&& 0b110 = 0b100 ∨ w &&& 0b110 = 0b110)

/-- R101: the truth table, row by row, with the value of each row. The rows' masks cover every input. -/
def Obligations.ShamtRowsByMask : Prop :=
  ∀ v : ShamtIn,
    (v &&& 0x01 = 0x01 → decode (.shamtIn v) = .shamt1Lsb v ∧ shamtOf v = 1) ∧
    (v &&& 0x03 = 0x02 → decode (.shamtIn v) = .shamt1 v ∧ shamtOf v = 1) ∧
    (v &&& 0x07 = 0x04 → decode (.shamtIn v) = .shamt2 v ∧ shamtOf v = 2) ∧
    (v &&& 0x0F = 0x08 → decode (.shamtIn v) = .shamt3 v ∧ shamtOf v = 3) ∧
    (v &&& 0x1F = 0x10 → decode (.shamtIn v) = .shamt4 v ∧ shamtOf v = 4) ∧
    (v &&& 0x3F = 0x20 → decode (.shamtIn v) = .shamt5 v ∧ shamtOf v = 5) ∧
    (v &&& 0x7F = 0x40 → decode (.shamtIn v) = .shamt6 v ∧ shamtOf v = 6) ∧
    (v &&& 0xFF = 0x80 → decode (.shamtIn v) = .shamt7 v ∧ shamtOf v = 7) ∧
    (v &&& 0xFF = 0x00 → decode (.shamtIn v) = .shamt8 v ∧ shamtOf v = 8) ∧
    (v &&& 0x01 = 0x01 ∨ v &&& 0x03 = 0x02 ∨ v &&& 0x07 = 0x04 ∨ v &&& 0x0F = 0x08 ∨ v &&& 0x1F = 0x10 ∨
      v &&& 0x3F = 0x20 ∨ v &&& 0x7F = 0x40 ∨ v &&& 0xFF = 0x80 ∨ v &&& 0xFF = 0x00)

/-- Words written out from R70, R79 and R101 decode to the operations they stand for. -/
def Obligations.WordsOfEachFormat : Prop :=
  decode (.req 0x0000000600000007) = .mul 6 7 ∧
  decode (.ctrl 0b001) = .idleLoad 1 ∧
  decode (.ctrl 0b011) = .calcShiftAdd ∧
  decode (.ctrl 0b010) = .calcShift ∧
  decode (.ctrl 0b100) = .doneHold 0 ∧
  decode (.ctrl 0b111) = .state3Reserved 1 ∧
  decode (.shamtIn 0xFF) = .shamt1Lsb 0xFF ∧
  decode (.shamtIn 0x28) = .shamt3 0x28 ∧
  decode (.shamtIn 0x80) = .shamt7 0x80

/-- R91: the 67-bit vector `{reset, req_en, resp_rdy, req_msg}` holds a cycle's inputs, bit for bit. -/
def Obligations.InputVectorHoldsTheInputs : Prop :=
  (∀ v : Input, Input.ofVector v.vector = v ∧ v.vector.toNat =
    v.reset.toNat * 2 ^ 66 + v.reqEn.toNat * 2 ^ 65 + v.respRdy.toNat * 2 ^ 64 + v.reqMsg.toNat) ∧
  ∀ x : BitVec 67, (Input.ofVector x).vector = x

/-! ### Shift-amount calculator and datapath -/

/-- R100 with R16: 1 when the low bit is set; otherwise the number of consecutive zero bits from bit 0, 8 for 0. -/
def Obligations.ShamtCountsTrailingZeros : Prop :=
  ∀ v : ShamtIn,
    (v.getLsbD 0 = true → (shamtOf v).toNat = 1) ∧
    (v.getLsbD 0 = false → v ≠ 0 →
      v.getLsbD (shamtOf v).toNat = true ∧ ∀ j < (shamtOf v).toNat, v.getLsbD j = false) ∧
    (v = 0 → (shamtOf v).toNat = 8) ∧
    1 ≤ (shamtOf v).toNat ∧ (shamtOf v).toNat ≤ 8

/-- R102: what the datapath relies on. A shift discards only zero bits, but for the one bit of an odd `B`. -/
def Obligations.ShiftDiscardsOnlyZeros : Prop :=
  ∀ b : Word,
    (b.getLsbD 0 = false → b ≠ 0 →
      1 ≤ (shiftAmount b).toNat ∧ (∀ i < (shiftAmount b).toNat, b.getLsbD i = false) ∧
        b.toNat = (b >>> (shiftAmount b).toNat).toNat * 2 ^ (shiftAmount b).toNat) ∧
    (b.getLsbD 0 = true → shiftAmount b = 1 ∧ b.toNat = 2 * (b >>> 1).toNat + 1) ∧
    (b = 0 → shiftAmount b = 8 ∧ b >>> 8 = 0)

/-- R110, R113: the shifters and the adder, in integers. -/
def Obligations.DatapathArithmetic : Prop :=
  ∀ (a b r : Word) (k : ShamtOut),
    (aShifted a k).toNat = a.toNat * 2 ^ k.toNat % 2 ^ 32 ∧
    (bShifted b k).toNat = b.toNat / 2 ^ k.toNat ∧
    (adderSum a r).toNat = (a.toNat + r.toNat) % 2 ^ 32

/-- R119 (R111, R112, R114, R115, R117), select by select, with the encodings of R72 to R75, and the status of `B`
alone. -/
def Obligations.DatapathFollowsTheSelects : Prop :=
  ∀ (d : DataRegs) (msg : ReqMsg) (c : Control),
    let n := datapathNext d msg c
    let k := shiftAmount d.b
    (c.aSel.bit = 0 → n.a = reqA msg) ∧ (c.aSel.bit = 1 → n.a = aShifted d.a k) ∧
    (c.bSel.bit = 0 → n.b = reqB msg) ∧ (c.bSel.bit = 1 → n.b = bShifted d.b k) ∧
    (c.resEn = false → n.r = d.r) ∧
    (c.resEn = true → c.resSel.bit = 1 → n.r = 0) ∧
    (c.resEn = true → c.resSel.bit = 0 → c.addSel.bit = 0 → n.r = adderSum d.a d.r) ∧
    (c.resEn = true → c.resSel.bit = 0 → c.addSel.bit = 1 → n.r = d.r) ∧
    (bLsb d.b).toNat = d.b.toNat % 2 ∧ (bZero d.b = true ↔ d.b = 0)

/-! ### Control FSM -/

/-- R134: the transition table, row by row. -/
def Obligations.TransitionTable : Prop :=
  ∀ (q : FsmState) (e z r : Bool),
    fsmNext q true e z r = .IDLE ∧
    fsmNext .IDLE false false z r = .IDLE ∧ fsmNext .IDLE false true z r = .CALC ∧
    fsmNext .CALC false e false r = .CALC ∧ fsmNext .CALC false e true r = .DONE ∧
    fsmNext .DONE false e z false = .DONE ∧ fsmNext .DONE false e z true = .IDLE

/-- R143 (R140 to R142) in the control word of R77: `100011x`, `0011010`, `0011011`, `0rxxx0x`. -/
def Obligations.OutputTable : Prop :=
  ∀ (lsb : BitVec 1) (r : Bool) (d : Draws),
    (fsmOutputs .IDLE lsb r d).word.extractLsb' 1 6 = 0b100011 ∧
    (fsmOutputs .IDLE lsb r d).addSel = d.dAdd ∧
    (fsmOutputs .CALC 1 r d).word = 0b0011010 ∧
    (fsmOutputs .CALC 0 r d).word = 0b0011011 ∧
    (fsmOutputs .DONE lsb r d).reqRdy = false ∧ (fsmOutputs .DONE lsb r d).respEn = r ∧
    (fsmOutputs .DONE lsb r d).resEn = false ∧
    (fsmOutputs .DONE lsb r d).aSel = d.dA ∧ (fsmOutputs .DONE lsb r d).bSel = d.dB ∧
    (fsmOutputs .DONE lsb r d).resSel = d.dRes ∧ (fsmOutputs .DONE lsb r d).addSel = d.dAdd

/-! ### The operations of one cycle: results and frames -/

/-- R150: IDLE_LOAD completes in every state, with its result and its frame. Its effect in a state it is not decoded
in is the model's (log entry 15), and so is the record of transfers, which a reset cycle empties (log entry 10). -/
def Obligations.IdleLoadResult : Prop :=
  ∀ (x : BitVec 1) (s : State), ∃ t, exec (.idleLoad x) s = .next t ∧
    t.A.toNat = s.nowInput.reqMsg.toNat / 2 ^ 32 ∧ t.B.toNat = s.nowInput.reqMsg.toNat % 2 ^ 32 ∧ t.R = 0 ∧
    t.S = (if s.nowInput.reset then FsmState.IDLE.code
      else if s.nowInput.reqEn then FsmState.CALC.code else FsmState.IDLE.code) ∧
    t.out = { reqRdy := true, respEn := false, respMsg := s.R, reqFire := s.nowInput.reqEn, respFire := false } ∧
    t.accepted = (if s.nowInput.reset then []
      else if s.nowInput.reqEn then s.nowInput.reqMsg :: s.accepted else s.accepted) ∧
    t.delivered = (if s.nowInput.reset then [] else s.delivered) ∧ CycleFrame s t

/-- R151: CALC_SHIFT_ADD completes in every state, with its result and its frame. Its effect in a state it is
not decoded in is the model's (log entry 15), and so is the record of transfers, which a reset cycle empties (log
entry 10). -/
def Obligations.CalcShiftAddResult : Prop :=
  ∀ s : State, ∃ t, exec .calcShiftAdd s = .next t ∧
    t.R.toNat = (s.A.toNat + s.R.toNat) % 2 ^ 32 ∧ t.A.toNat = s.A.toNat * 2 % 2 ^ 32 ∧
    t.B.toNat = s.B.toNat / 2 ∧
    t.S = (if s.nowInput.reset then FsmState.IDLE.code else FsmState.CALC.code) ∧
    t.out = { reqRdy := false, respEn := false, respMsg := s.R, reqFire := false, respFire := false } ∧
    t.accepted = (if s.nowInput.reset then [] else s.accepted) ∧
    t.delivered = (if s.nowInput.reset then [] else s.delivered) ∧ CycleFrame s t

/-- R152: CALC_SHIFT completes in every state, with its result and its frame. Its effect in a state it is not decoded
in is the model's (log entry 15), and so is the record of transfers, which a reset cycle empties (log entry 10). -/
def Obligations.CalcShiftResult : Prop :=
  ∀ s : State, ∃ t, exec .calcShift s = .next t ∧
    t.R = s.R ∧ t.A.toNat = s.A.toNat * 2 ^ (shiftAmount s.B).toNat % 2 ^ 32 ∧
    t.B.toNat = s.B.toNat / 2 ^ (shiftAmount s.B).toNat ∧
    t.S = (if s.nowInput.reset then FsmState.IDLE.code
      else if s.B = 0 then FsmState.DONE.code else FsmState.CALC.code) ∧
    t.out = { reqRdy := false, respEn := false, respMsg := s.R, reqFire := false, respFire := false } ∧
    t.accepted = (if s.nowInput.reset then [] else s.accepted) ∧
    t.delivered = (if s.nowInput.reset then [] else s.delivered) ∧ CycleFrame s t

/-- R153: DONE_HOLD completes in every state, with its result and its frame. `A` and `B` take the request's field or
the shifted register, as the cycle's draws pick; the draws have no value that could be proved. Its effect in a state it
is not decoded in is the model's (log entry 15), and so is the record of transfers, which a reset cycle empties (log
entry 10). -/
def Obligations.DoneHoldResult : Prop :=
  ∀ (x : BitVec 1) (s : State), ∃ t, exec (.doneHold x) s = .next t ∧
    t.R = s.R ∧
    t.A = (if Config.drawASel s.drawStream s.drawIdx = 0 then reqA s.nowInput.reqMsg
      else aShifted s.A (shiftAmount s.B)) ∧
    t.B = (if Config.drawBSel s.drawStream s.drawIdx = 0 then reqB s.nowInput.reqMsg
      else bShifted s.B (shiftAmount s.B)) ∧
    t.S = (if s.nowInput.reset then FsmState.IDLE.code
      else if s.nowInput.respRdy then FsmState.IDLE.code else FsmState.DONE.code) ∧
    t.out = { reqRdy := false, respEn := s.nowInput.respRdy, respMsg := s.R, reqFire := false
              respFire := s.nowInput.respRdy } ∧
    t.accepted = (if s.nowInput.reset then [] else s.accepted) ∧
    t.delivered = (if s.nowInput.reset then []
      else if s.nowInput.respRdy then s.R :: s.delivered else s.delivered) ∧ CycleFrame s t

/-- R80, U6: without reset, the operation of the reserved code ends in the fault that names the state. The spec gives
the fault for the code `2'b11`; that the operation faults also where `S` holds another code, from which no step decodes
it, is the model's (log entry 15), and so is the fault's being confined to cycles without reset (log entries 5, 6). -/
def Obligations.ReservedStateFaults : Prop :=
  ∀ (x : BitVec 1) (s : State), s.nowInput.reset = false →
    exec (.state3Reserved x) s = .fault (.reservedState s.S)

/-- R130 in the reserved code: a reset cycle completes, in IDLE, with no transfer counted. The model's own reading
(log entry 6): R80 gives the code a fault, R130 gives reset the last word; every other result is a draw and this
statement says nothing of it. That it holds also where `S` holds another code is log entry 15, and the emptied record of
transfers is log entry 10. -/
def Obligations.ReservedStateIsLeftByReset : Prop :=
  ∀ (x : BitVec 1) (s : State), s.nowInput.reset = true →
    ∃ t, exec (.state3Reserved x) s = .next t ∧ t.S = FsmState.IDLE.code ∧ t.accepted = [] ∧ t.delivered = [] ∧
      t.out.respMsg = s.R ∧ CycleFrame s t

/-- R100, R101, R103: each row of the calculator completes in every state, drives the signal with `Shamt` of its input
and changes nothing else. The recorded signal, the rows as operations, and their running where `B[7:0]` does not select
them are the model's (log entries 9, 13, 15). -/
def Obligations.ShamtRowsDriveTheSignal : Prop :=
  ∀ (i : Instr) (v : ShamtIn) (s : State),
    i = .shamt1Lsb v ∨ i = .shamt1 v ∨ i = .shamt2 v ∨ i = .shamt3 v ∨ i = .shamt4 v ∨ i = .shamt5 v ∨
      i = .shamt6 v ∨ i = .shamt7 v ∨ i = .shamt8 v →
    i.WellFormed = true → exec i s = .next { s with shamt := shamtOf v }

/-! ### The step -/

/-- One step runs what is decoded: with no request waiting to be run as a whole, the calculator row that `B[7:0]`
selects and then the control row that `{S, B[0]}` selects (R79, R101); otherwise the MUL of the waiting request
(R84). -/
def Obligations.StepRunsTheDecodedRows : Prop :=
  (∀ s : State, s.mulQueue = [] →
    step s = Result.andThen (exec (decode (.shamtIn (s.B.extractLsb' 0 8))) s)
      (exec (decode (.ctrl (s.S ++ s.B.extractLsb' 0 1))))) ∧
  ∀ (s : State) (m : ReqMsg) (rest : List ReqMsg), s.mulQueue = m :: rest →
    step s = exec (decode (.req m)) { s with mulQueue := rest }

/-- R160: a step of the decoded operations is `Step`, built from the status, the FSM's output function, the datapath
and the transition. -/
def Obligations.StepIsTheSpecsStep : Prop :=
  ∀ (q : FsmState) (s : State), s.S = q.code → s.Clocked →
    ∃ t, step s = .next t ∧
      let x := unitStep q { a := s.A, b := s.B, r := s.R } s.nowInput (drawsAt s.drawStream s.drawIdx)
      t.out = x.out ∧ t.S = x.next.code ∧ t.A = x.regs.a ∧ t.B = x.regs.b ∧ t.R = x.regs.r ∧
      x.next = fsmNext q s.nowInput.reset s.nowInput.reqEn (bZero s.B) s.nowInput.respRdy ∧
      t.shamt = shiftAmount s.B ∧ t.inputs = s.inputs.tail ∧
      t.drawStream = s.drawStream ∧ t.drawIdx = s.drawIdx + 1

/-- R130, R201, R58: reset dominates, whatever the current state and the other inputs are, and abandons what is in
flight. That the records of transfers are emptied, also in a DONE cycle whose response transfers (R204), is the model's
reading of R58's restart of the count (log entry 10). -/
def Obligations.ResetDominates : Prop :=
  ∀ s : State, s.Legal → s.Clocked → s.nowInput.reset = true →
    ∃ t, step s = .next t ∧ t.S = FsmState.IDLE.code ∧ t.accepted = [] ∧ t.delivered = []

/-- R33: reset touches no state element but `S`: the cycle writes `A`, `B`, `R` and drives its outputs as it would
without reset. -/
def Obligations.ResetTouchesOnlyTheFsm : Prop :=
  ∀ (s : State) (v : Input) (rest : List Input), s.Legal → s.Clocked →
    ∃ t u, step (s.withInputs ({ v with reset := true } :: rest)) = .next t ∧
      step (s.withInputs ({ v with reset := false } :: rest)) = .next u ∧
      t.A = u.A ∧ t.B = u.B ∧ t.R = u.R ∧ t.out = u.out ∧ t.S = FsmState.IDLE.code

/-- R26, R27, R184: a request transfers exactly in IDLE with `req_en = 1`, a response exactly in DONE with
`resp_rdy = 1`, never both, and `resp_msg` is `R` in every cycle. -/
def Obligations.TransfersHappenExactlyWhen : Prop :=
  ∀ s : State, s.Legal → s.Clocked →
    ∃ t, step s = .next t ∧
      (t.out.reqFire = true ↔ s.S = FsmState.IDLE.code ∧ s.nowInput.reqEn = true) ∧
      (t.out.respFire = true ↔ s.S = FsmState.DONE.code ∧ s.nowInput.respRdy = true) ∧
      (t.out.reqFire && t.out.respFire) = false ∧ t.out.respMsg = s.R

/-- R135: the handshake outputs depend on `S` and `resp_rdy` alone: not on reset, `req_en`, `req_msg`, the registers
or the draws. -/
def Obligations.HandshakeDependsOnStateAndReady : Prop :=
  ∀ s t : State, s.Legal → s.Clocked → t.Clocked → t.S = s.S → t.nowInput.respRdy = s.nowInput.respRdy →
    ∃ s' t', step s = .next s' ∧ step t = .next t' ∧
      t'.out.reqRdy = s'.out.reqRdy ∧ t'.out.respEn = s'.out.respEn

/-- R181: presenting a request outside IDLE is a no-op: nothing transfers, nothing is taken or queued, and the cycle is
the cycle with `req_en = 0`; in CALC `req_msg` is not read, and in DONE `R` is not written. That a reset cycle empties
the record of requests is log entry 10. -/
def Obligations.RequestMisuseIsNoOp : Prop :=
  ∀ (s : State) (v : Input) (m : ReqMsg) (rest : List Input), s.Clocked →
    (s.S = FsmState.CALC.code ∨ s.S = FsmState.DONE.code →
      ∃ t, step (s.withInputs ({ v with reqEn := true } :: rest)) = .next t ∧
        step (s.withInputs ({ v with reqEn := false } :: rest)) = .next t ∧
        t.out.reqFire = false ∧ t.accepted = (if v.reset then [] else s.accepted) ∧
        (s.S = FsmState.DONE.code → t.R = s.R)) ∧
    (s.S = FsmState.CALC.code →
      ∃ t, step (s.withInputs ({ v with reqEn := true } :: rest)) = .next t ∧
        step (s.withInputs ({ v with reqEn := false, reqMsg := m } :: rest)) = .next t)

/-- R182: being ready for a response outside DONE is a no-op: nothing transfers, and the cycle is the cycle with
`resp_rdy = 0`. -/
def Obligations.ResponseMisuseIsNoOp : Prop :=
  ∀ (s : State) (v : Input) (rest : List Input), s.Clocked →
    (s.S = FsmState.IDLE.code ∨ s.S = FsmState.CALC.code) →
    ∃ t, step (s.withInputs ({ v with respRdy := true } :: rest)) = .next t ∧
      step (s.withInputs ({ v with respRdy := false } :: rest)) = .next t ∧ t.out.respFire = false

/-- R81: the draws never change a value seen at the boundary, nor the next state; and outside DONE they change nothing
but the count of draws itself. -/
def Obligations.DrawsNeverReachTheBoundary : Prop :=
  ∀ (s : State) (d n : Nat), s.Legal → s.Clocked → s.inputs ≠ [] →
    ∃ t u, step s = .next t ∧ step (s.withDraws d n) = .next u ∧
      u.S = t.S ∧ u.R = t.R ∧ u.out = t.out ∧ u.accepted = t.accepted ∧ u.delivered = t.delivered ∧
      (s.S ≠ FsmState.DONE.code → u = t.withDraws d (n + 1))

/-- R31: in IDLE and DONE the contents of `A` and `B` do not affect any later output: two units that differ only
there look the same from outside after any number of cycles. -/
def Obligations.StaleOperandsAreNeverSeen : Prop :=
  ∀ (n : Nat) (s t : State), s.Clocked → SameOutside s t →
    (s.S = FsmState.IDLE.code ∨ s.S = FsmState.DONE.code) →
    ∃ s' t', runSteps n s = .next s' ∧ runSteps n t = .next t' ∧ SameOutside s' t'

/-! ### Invariants -/

/-- R134: the reserved code is never entered, by a cycle or by a whole MUL. -/
def Obligations.LegalStateIsKept : Prop :=
  ∀ s t : State, s.Legal → step s = .next t → t.Legal

/-- R160, R180: from every state of the unit a step has a result; nothing makes it stop. -/
def Obligations.LegalStateNeverStops : Prop :=
  ∀ s : State, s.Legal → ∃ t, step s = .next t

/-- R57, R58, R162, R165: the loop invariant and the order of transfers, kept by every step, from every state that
meets them. -/
def Obligations.AccountIsKept : Prop :=
  ∀ s t : State, s.Accounted → step s = .next t → t.Accounted

/-- The account holds right after reset: nothing has transferred (R58, R202). -/
def Obligations.AccountHoldsAtReset : Prop :=
  State.reset.Accounted ∧ State.reset.S = FsmState.IDLE.code

/-- R57, R58: at most one multiplication is in flight, and the k-th response is the product of the k-th request,
oldest first. -/
def Obligations.ResponsesAnswerRequestsInOrder : Prop :=
  ∀ s : State, s.Accounted →
    s.accepted.length = s.delivered.length + (if s.S = FsmState.IDLE.code then 0 else 1) ∧
    ∀ k < s.delivered.length, s.delivered.reverse[k]? = (s.accepted.reverse[k]?).map product

/-- R162: every CALC cycle keeps `R + A * B` modulo 2^32, and one with `B = 0` leaves `R` unchanged and, without
reset, goes to DONE. -/
def Obligations.CalcCycleKeepsTheLoopInvariant : Prop :=
  ∀ s : State, s.Clocked → s.S = FsmState.CALC.code →
    ∃ t, step s = .next t ∧ t.R + t.A * t.B = s.R + s.A * s.B ∧
      (s.B = 0 → t.R = s.R ∧ (s.nowInput.reset = false → t.S = FsmState.DONE.code))

/-- R163: every CALC cycle with `B ≠ 0` makes `B` strictly smaller and its bit length smaller by at least one. -/
def Obligations.CalcCycleShrinksB : Prop :=
  ∀ s : State, s.Clocked → s.S = FsmState.CALC.code → s.B ≠ 0 →
    ∃ t, step s = .next t ∧ t.B.toNat < s.B.toNat ∧ t.B.toNat.size + 1 ≤ s.B.toNat.size

/-! ### Cycle counts -/

/-- R164: the recursion of the step count holds for every word (the count's fuel is enough). -/
def Obligations.StepCountRecursion : Prop :=
  steps 0 = 0 ∧ ∀ b : Word, b ≠ 0 → steps b = 1 + steps (b >>> (shiftAmount b).toNat)

/-- R164: the closed form, `popcount(b) + Σ ceil(z_i / 8)`. -/
def Obligations.StepCountClosedForm : Prop :=
  ∀ b : Word, steps b = stepsClosed b

/-- R167: the bounds, with the operands that reach them. -/
def Obligations.StepCountBounds : Prop :=
  (∀ b : Word, steps b ≤ 32 ∧ (steps b = 0 ↔ b = 0)) ∧ steps 0xFFFFFFFF = 32 ∧ steps 0xAAAAAAAA = 32

/-- R162, with the count of R164: the request transfers now; CALC occupies the next `steps(b) + 1` cycles, with the loop
invariant in each and `B = 0` in the last only, and the cycle after them is DONE with the product, whatever else the
surroundings drive. -/
def Obligations.LatencyAndProduct : Prop :=
  ∀ (s : State) (a b : Word), s.Accepts a b → s.NoResetFor (steps b + 2) →
    (∀ k, 1 ≤ k → k ≤ steps b + 1 →
      ∃ t, runSteps k s = .next t ∧ t.S = FsmState.CALC.code ∧ t.R + t.A * t.B = a * b ∧
        (t.B = 0 ↔ k = steps b + 1) ∧ (k = 1 → t.R = 0 ∧ t.A = a ∧ t.B = b)) ∧
    ∃ t, runSteps (steps b + 2) s = .next t ∧ t.S = FsmState.DONE.code ∧ t.R = a * b

/-- R165: in DONE, as long as the consumer is not ready and there is no reset, the result is held. -/
def Obligations.ResultIsHeldUntilTaken : Prop :=
  ∀ (n : Nat) (s : State), s.Clocked → s.S = FsmState.DONE.code →
    (∀ k v, k < n → s.inputs[k]? = some v → v.reset = false ∧ v.respRdy = false) →
    ∃ t, runSteps n s = .next t ∧ t.S = FsmState.DONE.code ∧ t.R = s.R ∧
      t.accepted = s.accepted ∧ t.delivered = s.delivered

/-- R165, R166: from the request transfer to the response transfer. CALC occupies the next `steps(b) + 1` cycles; the unit
is then in DONE with the product, nothing answered, for the `w` cycles in which the consumer is not ready and the one
after them, in which the response transfers with the product; and in the next cycle the unit is IDLE. -/
def Obligations.ResponseArrivesWithTheProduct : Prop :=
  ∀ (s : State) (a b : Word) (w : Nat), s.Accepts a b → s.NoResetFor (steps b + 3 + w) →
    (∀ k v, steps b + 2 ≤ k → k < steps b + 2 + w → s.inputs[k]? = some v → v.respRdy = false) →
    (∃ v, s.inputs[steps b + 2 + w]? = some v ∧ v.respRdy = true) →
    (∀ k, 1 ≤ k → k ≤ steps b + 1 → ∃ t, runSteps k s = .next t ∧ t.S = FsmState.CALC.code) ∧
    (∀ k, steps b + 2 ≤ k → k ≤ steps b + 2 + w →
      ∃ t, runSteps k s = .next t ∧ t.S = FsmState.DONE.code ∧ t.R.toNat = a.toNat * b.toNat % 2 ^ 32 ∧
        t.delivered = s.delivered) ∧
    ∃ t, runSteps (steps b + 3 + w) s = .next t ∧ t.S = FsmState.IDLE.code ∧
      t.out.respFire = true ∧ t.out.respMsg.toNat = a.toNat * b.toNat % 2 ^ 32 ∧
      t.accepted = packReq a b :: s.accepted ∧ t.delivered = a * b :: s.delivered

/-- R168: back to back. A response transfers, no request in the same cycle, and a request presented in the next cycle
transfers in it; so with both sides ready, the next request transfers `steps(b) + 3` cycles after this one. -/
def Obligations.NextRequestTransfersAtOnce : Prop :=
  (∀ (s : State) (v w : Input) (rest : List Input), s.Clocked → s.S = FsmState.DONE.code →
    s.inputs = v :: w :: rest → v.reset = false → v.respRdy = true → w.reset = false → w.reqEn = true →
    ∃ t u, step s = .next t ∧ t.S = FsmState.IDLE.code ∧ t.out.respFire = true ∧ t.out.reqRdy = false ∧
      t.out.reqFire = false ∧ t.delivered = s.R :: s.delivered ∧
      step t = .next u ∧ u.S = FsmState.CALC.code ∧ u.out.reqRdy = true ∧ u.out.reqFire = true ∧
      u.A = reqA w.reqMsg ∧ u.B = reqB w.reqMsg ∧ u.R = 0 ∧ u.accepted = w.reqMsg :: s.accepted) ∧
  ∀ (s : State) (a b : Word) (m : ReqMsg), s.Accepts a b → s.NoResetFor (steps b + 4) →
    (∃ v, s.inputs[steps b + 2]? = some v ∧ v.respRdy = true) →
    (∃ v, s.inputs[steps b + 3]? = some v ∧ v.reqEn = true ∧ v.reqMsg = m) →
    ∃ t, runSteps (steps b + 4) s = .next t ∧ t.S = FsmState.CALC.code ∧ t.out.reqFire = true ∧
      t.accepted = m :: packReq a b :: s.accepted ∧ t.delivered = a * b :: s.delivered

/-- R171: once a request has transferred, no input but reset changes the course of CALC, and in DONE only `resp_rdy`
and reset do. -/
def Obligations.OnlyResetAbandonsAnOperation : Prop :=
  ∀ (s : State) (v w : Input) (rest : List Input), s.Clocked → v.reset = false → w.reset = false →
    (s.S = FsmState.CALC.code →
      ∃ t, step (s.withInputs (v :: rest)) = .next t ∧ step (s.withInputs (w :: rest)) = .next t) ∧
    (s.S = FsmState.DONE.code → w.respRdy = v.respRdy →
      ∃ t u, step (s.withInputs (v :: rest)) = .next t ∧ step (s.withInputs (w :: rest)) = .next u ∧
        u.S = t.S ∧ u.R = t.R ∧ u.out = t.out ∧ u.accepted = t.accepted ∧ u.delivered = t.delivered)

/-- R202: a reset cycle, and then a cycle without reset. Whichever state the unit was in, and whatever `A`, `B` and `R`
hold, it is then ready, offers no response, and can accept a request in that same cycle. The record that then holds this
request alone is log entry 10. -/
def Obligations.ReadyRightAfterReset : Prop :=
  ∀ (s : State) (v w : Input) (rest : List Input), s.Legal → s.Clocked → s.inputs = v :: w :: rest → v.reset = true →
    w.reset = false →
    ∃ t u, step s = .next t ∧ t.S = FsmState.IDLE.code ∧ step t = .next u ∧ u.out.reqRdy = true ∧
      u.out.respEn = false ∧
      (w.reqEn = true → u.out.reqFire = true ∧ u.S = FsmState.CALC.code ∧ u.A = reqA w.reqMsg ∧
        u.B = reqB w.reqMsg ∧ u.R = 0 ∧ u.accepted = [w.reqMsg])

/-- R204: what a handshake in a reset cycle does. A request shows as a transfer and is lost; a response
transfers. The model runs such a cycle (log entry 19) and counts no transfer of it (log entry 10). -/
def Obligations.HandshakeDuringReset : Prop :=
  ∀ s : State, s.Clocked → s.nowInput.reset = true →
    (s.S = FsmState.IDLE.code → s.nowInput.reqEn = true →
      ∃ t, step s = .next t ∧ t.out.reqFire = true ∧ t.S = FsmState.IDLE.code ∧ t.accepted = []) ∧
    (s.S = FsmState.DONE.code → s.nowInput.respRdy = true →
      ∃ t, step s = .next t ∧ t.out.respFire = true ∧ t.out.respMsg = s.R ∧ t.S = FsmState.IDLE.code)

/-! ### The whole multiplication -/

/-- R161: MUL completes from every state of the unit, whatever the surroundings drive but reset, and its response is
`(a * b) mod 2^32`. From IDLE it transfers exactly one request and one response. That it is one step, from each of the
three states and under listed inputs, is the model's (log entries 1, 4). -/
def Obligations.MulDeliversTheProduct : Prop :=
  ∀ (a b : Word) (s : State), s.Legal → (∀ v ∈ s.inputs, v.reset = false) →
    ∃ t, exec (.mul a b) s = .next t ∧ t.S = FsmState.IDLE.code ∧ t.R = a * b ∧
      t.out.respFire = true ∧ t.out.respMsg.toNat = a.toNat * b.toNat % 2 ^ 32 ∧ t.mulQueue = s.mulQueue ∧
      (s.S = FsmState.IDLE.code →
        t.accepted = packReq a b :: s.accepted ∧ t.delivered = a * b :: s.delivered)

/-- MUL adds nothing to the cycles: from IDLE, with nothing listed, it is `steps(b) + 3` clock cycles in which the
requester presents `{a, b}` in the first and the consumer is ready in all (R92, R161, R210). That
drive of cycles with nothing listed is the model's (log entry 4). -/
def Obligations.MulIsItsCycles : Prop :=
  ∀ (a b : Word) (s : State), s.Clocked → s.S = FsmState.IDLE.code → s.inputs = [] →
    exec (.mul a b) s = runSteps (steps b + 3)
      (s.withInputs ({ reset := false, reqEn := true, respRdy := true, reqMsg := packReq a b } ::
        (List.range (steps b + 2)).map fun k =>
          { reset := false, reqEn := false, respRdy := true
            reqMsg := Config.drawReqMsg s.drawStream (s.drawIdx + 1 + k) }))

/-- R161, R201: a reset in a CALC cycle of a MUL abandons it: the unit is in IDLE, nothing is answered, and the
operation takes no cycle after the reset cycle. That it is one step under listed inputs is log entries 1 and 4; the
emptied records of transfers are log entry 10. -/
def Obligations.MulIsAbandonedByReset : Prop :=
  ∀ (a b : Word) (s : State) (k : Nat) (v : Input), s.S = FsmState.IDLE.code → s.NoResetFor k →
    1 ≤ k → k ≤ steps b + 1 → s.inputs[k]? = some v → v.reset = true →
    ∃ t, exec (.mul a b) s = .next t ∧ t.S = FsmState.IDLE.code ∧ t.out.respFire = false ∧
      t.accepted = [] ∧ t.delivered = [] ∧ t.inputs = s.inputs.drop (k + 1)

/-- R169: the response to `(a, b)` is the same whatever happened before. That MUL answers as one step from each of the
three states, with a ready consumer where nothing is listed, is the model's (log entries 1, 4). -/
def Obligations.MulForgetsThePast : Prop :=
  ∀ (a b : Word) (s t : State), s.Legal → t.Legal → (∀ v ∈ s.inputs, v.reset = false) →
    (∀ v ∈ t.inputs, v.reset = false) →
    ∃ s' t', exec (.mul a b) s = .next s' ∧ exec (.mul a b) t = .next t' ∧
      t'.out.respMsg = s'.out.respMsg ∧ t'.R = s'.R ∧ t'.S = s'.S

/-- R173: a requester that means two's-complement numbers gets the low 32 bits of the signed product. That MUL
answers as one step from each of the three states under listed inputs is the model's (log entries 1, 4). -/
def Obligations.MulOfSignedReadings : Prop :=
  ∀ (a b : Word) (s : State), s.Legal → (∀ v ∈ s.inputs, v.reset = false) →
    ∃ t, exec (.mul a b) s = .next t ∧ t.out.respMsg = BitVec.ofInt 32 (a.toInt * b.toInt)

/-- R170: the zero operands. `b = 0` is in DONE after one CALC cycle, with result 0; `a = 0` gives 0 after
`steps(b) + 1` CALC cycles. -/
def Obligations.ZeroOperands : Prop :=
  ∀ (s : State) (a b : Word), s.Accepts a b → s.NoResetFor (steps b + 2) →
    (b = 0 → ∃ t u, runSteps 1 s = .next t ∧ t.S = FsmState.CALC.code ∧
      runSteps 2 s = .next u ∧ u.S = FsmState.DONE.code ∧ u.R = 0) ∧
    (a = 0 → ∃ u, runSteps (steps b + 2) s = .next u ∧ u.S = FsmState.DONE.code ∧ u.R = 0)

/-! ### Units, trace, scripts -/

/-- R187: several units are the product of independent copies of `Step` (R160), each on its own registers, its own ports
and its own draws, whatever the others hold. From states of the unit the product always answers, and units that have
their draws to themselves keep them so. That the units step together, and the form of a unit's own draws, are the
model's (log entries 21 and 8). -/
def Obligations.UnitsAreIndependent : Prop :=
  ∀ us : List State, (∀ u ∈ us, u.Legal) →
    ∃ ts, Units.step us = .next ts ∧ ts.length = us.length ∧ (Units.OwnDraws us → Units.OwnDraws ts) ∧
      ∀ (k : Nat) (u : State) (q : FsmState), us[k]? = some u → u.S = q.code →
        ∃ t, ts[k]? = some t ∧
          let x := unitStep q { a := u.A, b := u.B, r := u.R } u.nowInput (drawsAt u.drawStream u.drawIdx)
          t.out = x.out ∧ t.S = x.next.code ∧ t.A = x.regs.a ∧ t.B = x.regs.b ∧ t.R = x.regs.r ∧
          t.inputs = u.inputs.tail ∧ t.mulQueue = u.mulQueue ∧ t.drawStream = u.drawStream ∧
          t.drawIdx = u.drawIdx + 1

/-- R188: the trace reports the state tag and, in CALC, exactly whether the cycle is CALC_SHIFT_ADD or CALC_SHIFT. -/
def Obligations.TraceNamesTheOperation : Prop :=
  ∀ s : State, s.traceReport.tag = s.S ∧
    (s.traceReport.kind = some .shiftAndAdd ↔ decode (.ctrl (s.S ++ s.B.extractLsb' 0 1)) = .calcShiftAdd) ∧
    (s.traceReport.kind = some .shiftOnly ↔ decode (.ctrl (s.S ++ s.B.extractLsb' 0 1)) = .calcShift)

/-- R90: `SEND` presents its message in every cycle until it transfers and is then over; `RECV` is ready in every cycle
until a response transfers. Outside reset cycles, from every state of the unit. The record of mismatches is
the model's (log entry 20). -/
def Obligations.CommandsRepeatUntilTransfer : Prop :=
  ∀ (b : Bench) (m : ReqMsg) (v : Word) (rs : List RequesterItem) (cs : List ConsumerItem),
    b.unit.Legal → b.resetting = false → b.requester = .present m :: rs → b.consumer = .take v :: cs →
    ∃ c, b.step = .next c ∧ c.cycle = b.cycle + 1 ∧
      (b.unit.S = FsmState.IDLE.code → c.requester = rs ∧ c.unit.accepted = m :: b.unit.accepted) ∧
      (b.unit.S ≠ FsmState.IDLE.code → c.requester = b.requester ∧ c.unit.accepted = b.unit.accepted) ∧
      (b.unit.S = FsmState.DONE.code → c.consumer = cs ∧
        c.mismatches = (if b.unit.R = v then [] else [(v, b.unit.R)]) ++ b.mismatches) ∧
      (b.unit.S ≠ FsmState.DONE.code → c.consumer = b.consumer ∧ c.mismatches = b.mismatches)

/-- R92, R161: the script `MUL a, b -> v` against a unit in IDLE ends after `steps(b) + 3` cycles, both commands over,
and shows a mismatch exactly when `v` is not the product. The record of mismatches is the model's (log entry 20). -/
def Obligations.MulScriptReceivesTheProduct : Prop :=
  ∀ (a b v : Word) (s : State), s.S = FsmState.IDLE.code →
    ∃ c, Bench.run (steps b + 3) ((Script.mul a b v).start s) = .next c ∧
      c.requester = [] ∧ c.consumer = [] ∧ c.unit.S = FsmState.IDLE.code ∧
      c.mismatches = (if v = a * b then [] else [(v, a * b)])

/-- The reset state of several units (R187, R202): as many as asked, each of them the reset state but for which draws
are its own, all in IDLE, with no two sharing their draws (the form of the draws is log entry 8). -/
def Obligations.UnitsResetWithOwnDraws : Prop :=
  ∀ n : Nat, (Units.reset n).length = n ∧ Units.OwnDraws (Units.reset n) ∧
    ∀ u ∈ Units.reset n, u = { State.reset with drawStream := u.drawStream } ∧ u.S = FsmState.IDLE.code ∧ u.Legal
end

