-- ==== Sys2Proof/Laws/Encoding.lean ====
section
/-!
SUPPORT. The packing of the request message (30_encoding.md R70, R82), in integers and back.
-/

namespace Sys2Proof

theorem reqA_toNat (m : ReqMsg) : (reqA m).toNat = m.toNat / 2 ^ 32 := by
  have := m.isLt
  simp only [reqA, BitVec.extractLsb'_toNat, Nat.shiftRight_eq_div_pow]
  omega

theorem reqB_toNat (m : ReqMsg) : (reqB m).toNat = m.toNat % 2 ^ 32 := by
  simp [reqB]

theorem packReq_toNat (a b : Word) : (packReq a b).toNat = a.toNat * 2 ^ 32 + b.toNat := by
  have h : (packReq a b).toNat = a.toNat <<< 32 ||| b.toNat := BitVec.toNat_append a b
  rw [h, ← Nat.shiftLeft_add_eq_or_of_lt b.isLt, Nat.shiftLeft_eq]

/-- The multiplicand of a packed message (R82). -/
@[simp] theorem reqA_packReq (a b : Word) : reqA (packReq a b) = a := by
  apply BitVec.eq_of_toNat_eq
  have := b.isLt
  rw [reqA_toNat, packReq_toNat]
  omega

/-- The multiplier of a packed message (R82). -/
@[simp] theorem reqB_packReq (a b : Word) : reqB (packReq a b) = b := by
  apply BitVec.eq_of_toNat_eq
  have := b.isLt
  rw [reqB_toNat, packReq_toNat]
  omega

/-- Every message is the packing of its halves (R70). -/
@[simp] theorem packReq_halves (m : ReqMsg) : packReq (reqA m) (reqB m) = m := by
  apply BitVec.eq_of_toNat_eq
  rw [packReq_toNat, reqA_toNat, reqB_toNat]
  omega

end Sys2Proof
end

