-- ==== Sys2Proof/Laws/State.lean ====
section
/-!
SUPPORT. One lemma per field per update of State, each true by unfolding the update once.
-/

namespace Sys2Proof.Machine

/-! ### `setShamt` -/

@[simp] theorem State.setShamt_S (s : State) (k : ShamtOut) :
    (s.setShamt k).S = s.S := rfl

@[simp] theorem State.setShamt_A (s : State) (k : ShamtOut) :
    (s.setShamt k).A = s.A := rfl

@[simp] theorem State.setShamt_B (s : State) (k : ShamtOut) :
    (s.setShamt k).B = s.B := rfl

@[simp] theorem State.setShamt_R (s : State) (k : ShamtOut) :
    (s.setShamt k).R = s.R := rfl

@[simp] theorem State.setShamt_shamt (s : State) (k : ShamtOut) :
    (s.setShamt k).shamt = k := rfl

@[simp] theorem State.setShamt_out (s : State) (k : ShamtOut) :
    (s.setShamt k).out = s.out := rfl

@[simp] theorem State.setShamt_accepted (s : State) (k : ShamtOut) :
    (s.setShamt k).accepted = s.accepted := rfl

@[simp] theorem State.setShamt_delivered (s : State) (k : ShamtOut) :
    (s.setShamt k).delivered = s.delivered := rfl

@[simp] theorem State.setShamt_inputs (s : State) (k : ShamtOut) :
    (s.setShamt k).inputs = s.inputs := rfl

@[simp] theorem State.setShamt_mulQueue (s : State) (k : ShamtOut) :
    (s.setShamt k).mulQueue = s.mulQueue := rfl

@[simp] theorem State.setShamt_drawStream (s : State) (k : ShamtOut) :
    (s.setShamt k).drawStream = s.drawStream := rfl

@[simp] theorem State.setShamt_drawIdx (s : State) (k : ShamtOut) :
    (s.setShamt k).drawIdx = s.drawIdx := rfl

@[simp] theorem State.setShamt_nowInput (s : State) (k : ShamtOut) : (s.setShamt k).nowInput = s.nowInput := rfl

/-! ### `withInputs` and `withDraws` -/

@[simp] theorem State.withInputs_S (s : State) (l : List Input) :
    (s.withInputs l).S = s.S := rfl

@[simp] theorem State.withInputs_A (s : State) (l : List Input) :
    (s.withInputs l).A = s.A := rfl

@[simp] theorem State.withInputs_B (s : State) (l : List Input) :
    (s.withInputs l).B = s.B := rfl

@[simp] theorem State.withInputs_R (s : State) (l : List Input) :
    (s.withInputs l).R = s.R := rfl

@[simp] theorem State.withInputs_shamt (s : State) (l : List Input) :
    (s.withInputs l).shamt = s.shamt := rfl

@[simp] theorem State.withInputs_out (s : State) (l : List Input) :
    (s.withInputs l).out = s.out := rfl

@[simp] theorem State.withInputs_accepted (s : State) (l : List Input) :
    (s.withInputs l).accepted = s.accepted := rfl

@[simp] theorem State.withInputs_delivered (s : State) (l : List Input) :
    (s.withInputs l).delivered = s.delivered := rfl

@[simp] theorem State.withInputs_inputs (s : State) (l : List Input) :
    (s.withInputs l).inputs = l := rfl

@[simp] theorem State.withInputs_mulQueue (s : State) (l : List Input) :
    (s.withInputs l).mulQueue = s.mulQueue := rfl

@[simp] theorem State.withInputs_drawStream (s : State) (l : List Input) :
    (s.withInputs l).drawStream = s.drawStream := rfl

@[simp] theorem State.withInputs_drawIdx (s : State) (l : List Input) :
    (s.withInputs l).drawIdx = s.drawIdx := rfl

@[simp] theorem State.withInputs_nowInput (s : State) (v : Input) (l : List Input) :
    (s.withInputs (v :: l)).nowInput = v := rfl

@[simp] theorem State.withDraws_S (s : State) (d n : Nat) :
    (s.withDraws d n).S = s.S := rfl

@[simp] theorem State.withDraws_A (s : State) (d n : Nat) :
    (s.withDraws d n).A = s.A := rfl

@[simp] theorem State.withDraws_B (s : State) (d n : Nat) :
    (s.withDraws d n).B = s.B := rfl

@[simp] theorem State.withDraws_R (s : State) (d n : Nat) :
    (s.withDraws d n).R = s.R := rfl

@[simp] theorem State.withDraws_shamt (s : State) (d n : Nat) :
    (s.withDraws d n).shamt = s.shamt := rfl

@[simp] theorem State.withDraws_out (s : State) (d n : Nat) :
    (s.withDraws d n).out = s.out := rfl

@[simp] theorem State.withDraws_accepted (s : State) (d n : Nat) :
    (s.withDraws d n).accepted = s.accepted := rfl

@[simp] theorem State.withDraws_delivered (s : State) (d n : Nat) :
    (s.withDraws d n).delivered = s.delivered := rfl

@[simp] theorem State.withDraws_inputs (s : State) (d n : Nat) :
    (s.withDraws d n).inputs = s.inputs := rfl

@[simp] theorem State.withDraws_mulQueue (s : State) (d n : Nat) :
    (s.withDraws d n).mulQueue = s.mulQueue := rfl

@[simp] theorem State.withDraws_drawStream (s : State) (d n : Nat) :
    (s.withDraws d n).drawStream = d := rfl

@[simp] theorem State.withDraws_drawIdx (s : State) (d n : Nat) :
    (s.withDraws d n).drawIdx = n := rfl

/-! ### `commit` -/

@[simp] theorem State.commit_S (s : State) (o : Outputs) (c : FsmCode) (d : DataRegs) :
    (s.commit o c d).S = c := rfl

@[simp] theorem State.commit_A (s : State) (o : Outputs) (c : FsmCode) (d : DataRegs) :
    (s.commit o c d).A = d.a := rfl

@[simp] theorem State.commit_B (s : State) (o : Outputs) (c : FsmCode) (d : DataRegs) :
    (s.commit o c d).B = d.b := rfl

@[simp] theorem State.commit_R (s : State) (o : Outputs) (c : FsmCode) (d : DataRegs) :
    (s.commit o c d).R = d.r := rfl

@[simp] theorem State.commit_shamt (s : State) (o : Outputs) (c : FsmCode) (d : DataRegs) :
    (s.commit o c d).shamt = s.shamt := rfl

@[simp] theorem State.commit_out (s : State) (o : Outputs) (c : FsmCode) (d : DataRegs) :
    (s.commit o c d).out = o := rfl

@[simp] theorem State.commit_accepted (s : State) (o : Outputs) (c : FsmCode) (d : DataRegs) :
    (s.commit o c d).accepted = 
      if s.nowInput.reset then [] else if o.reqFire then s.nowInput.reqMsg :: s.accepted else s.accepted := rfl

@[simp] theorem State.commit_delivered (s : State) (o : Outputs) (c : FsmCode) (d : DataRegs) :
    (s.commit o c d).delivered = 
      if s.nowInput.reset then [] else if o.respFire then o.respMsg :: s.delivered else s.delivered := rfl

@[simp] theorem State.commit_inputs (s : State) (o : Outputs) (c : FsmCode) (d : DataRegs) :
    (s.commit o c d).inputs = s.inputs.tail := rfl

@[simp] theorem State.commit_mulQueue (s : State) (o : Outputs) (c : FsmCode) (d : DataRegs) :
    (s.commit o c d).mulQueue = s.mulQueue := rfl

@[simp] theorem State.commit_drawStream (s : State) (o : Outputs) (c : FsmCode) (d : DataRegs) :
    (s.commit o c d).drawStream = s.drawStream := rfl

@[simp] theorem State.commit_drawIdx (s : State) (o : Outputs) (c : FsmCode) (d : DataRegs) :
    (s.commit o c d).drawIdx = s.drawIdx + 1 := rfl

/-! ### `endCycle` -/

@[simp] theorem State.endCycle_S (s : State) (rdy en : Bool) (q : FsmState) (a b r : Word) :
    (s.endCycle rdy en q a b r).S = q.code := rfl

@[simp] theorem State.endCycle_A (s : State) (rdy en : Bool) (q : FsmState) (a b r : Word) :
    (s.endCycle rdy en q a b r).A = a := rfl

@[simp] theorem State.endCycle_B (s : State) (rdy en : Bool) (q : FsmState) (a b r : Word) :
    (s.endCycle rdy en q a b r).B = b := rfl

@[simp] theorem State.endCycle_R (s : State) (rdy en : Bool) (q : FsmState) (a b r : Word) :
    (s.endCycle rdy en q a b r).R = r := rfl

@[simp] theorem State.endCycle_shamt (s : State) (rdy en : Bool) (q : FsmState) (a b r : Word) :
    (s.endCycle rdy en q a b r).shamt = s.shamt := rfl

@[simp] theorem State.endCycle_out (s : State) (rdy en : Bool) (q : FsmState) (a b r : Word) :
    (s.endCycle rdy en q a b r).out = outputsOf s.nowInput rdy en s.R := rfl

@[simp] theorem State.endCycle_accepted (s : State) (rdy en : Bool) (q : FsmState) (a b r : Word) :
    (s.endCycle rdy en q a b r).accepted = 
      if s.nowInput.reset then [] else if s.nowInput.reqEn && rdy then s.nowInput.reqMsg :: s.accepted else s.accepted := rfl

@[simp] theorem State.endCycle_delivered (s : State) (rdy en : Bool) (q : FsmState) (a b r : Word) :
    (s.endCycle rdy en q a b r).delivered = 
      if s.nowInput.reset then [] else if en && s.nowInput.respRdy then s.R :: s.delivered else s.delivered := rfl

@[simp] theorem State.endCycle_inputs (s : State) (rdy en : Bool) (q : FsmState) (a b r : Word) :
    (s.endCycle rdy en q a b r).inputs = s.inputs.tail := rfl

@[simp] theorem State.endCycle_mulQueue (s : State) (rdy en : Bool) (q : FsmState) (a b r : Word) :
    (s.endCycle rdy en q a b r).mulQueue = s.mulQueue := rfl

@[simp] theorem State.endCycle_drawStream (s : State) (rdy en : Bool) (q : FsmState) (a b r : Word) :
    (s.endCycle rdy en q a b r).drawStream = s.drawStream := rfl

@[simp] theorem State.endCycle_drawIdx (s : State) (rdy en : Bool) (q : FsmState) (a b r : Word) :
    (s.endCycle rdy en q a b r).drawIdx = s.drawIdx + 1 := rfl

/-! ### `drivenBy` -/

@[simp] theorem State.drivenBy_S (s : State) (v : Input) :
    (s.drivenBy v).S = s.S := rfl

@[simp] theorem State.drivenBy_A (s : State) (v : Input) :
    (s.drivenBy v).A = s.A := rfl

@[simp] theorem State.drivenBy_B (s : State) (v : Input) :
    (s.drivenBy v).B = s.B := rfl

@[simp] theorem State.drivenBy_R (s : State) (v : Input) :
    (s.drivenBy v).R = s.R := rfl

@[simp] theorem State.drivenBy_shamt (s : State) (v : Input) :
    (s.drivenBy v).shamt = s.shamt := rfl

@[simp] theorem State.drivenBy_out (s : State) (v : Input) :
    (s.drivenBy v).out = s.out := rfl

@[simp] theorem State.drivenBy_accepted (s : State) (v : Input) :
    (s.drivenBy v).accepted = s.accepted := rfl

@[simp] theorem State.drivenBy_delivered (s : State) (v : Input) :
    (s.drivenBy v).delivered = s.delivered := rfl

@[simp] theorem State.drivenBy_inputs (s : State) (v : Input) :
    (s.drivenBy v).inputs = v :: s.inputs.tail := rfl

@[simp] theorem State.drivenBy_mulQueue (s : State) (v : Input) :
    (s.drivenBy v).mulQueue = s.mulQueue := rfl

@[simp] theorem State.drivenBy_drawStream (s : State) (v : Input) :
    (s.drivenBy v).drawStream = s.drawStream := rfl

@[simp] theorem State.drivenBy_drawIdx (s : State) (v : Input) :
    (s.drivenBy v).drawIdx = s.drawIdx := rfl

@[simp] theorem State.drivenBy_nowInput (s : State) (v : Input) : (s.drivenBy v).nowInput = v := rfl

/-! ### `onlyDriven` -/

@[simp] theorem State.onlyDriven_S (s : State) (v : Input) : (s.onlyDriven v).S = s.S := rfl

@[simp] theorem State.onlyDriven_A (s : State) (v : Input) : (s.onlyDriven v).A = s.A := rfl

@[simp] theorem State.onlyDriven_B (s : State) (v : Input) : (s.onlyDriven v).B = s.B := rfl

@[simp] theorem State.onlyDriven_R (s : State) (v : Input) : (s.onlyDriven v).R = s.R := rfl

@[simp] theorem State.onlyDriven_shamt (s : State) (v : Input) : (s.onlyDriven v).shamt = s.shamt := rfl

@[simp] theorem State.onlyDriven_out (s : State) (v : Input) : (s.onlyDriven v).out = s.out := rfl

@[simp] theorem State.onlyDriven_accepted (s : State) (v : Input) : (s.onlyDriven v).accepted = s.accepted := rfl

@[simp] theorem State.onlyDriven_delivered (s : State) (v : Input) : (s.onlyDriven v).delivered = s.delivered := rfl

@[simp] theorem State.onlyDriven_drawStream (s : State) (v : Input) : (s.onlyDriven v).drawStream = s.drawStream := rfl

@[simp] theorem State.onlyDriven_drawIdx (s : State) (v : Input) : (s.onlyDriven v).drawIdx = s.drawIdx := rfl

@[simp] theorem State.onlyDriven_inputs (s : State) (v : Input) : (s.onlyDriven v).inputs = [v] := rfl

@[simp] theorem State.onlyDriven_mulQueue (s : State) (v : Input) : (s.onlyDriven v).mulQueue = [] := rfl

@[simp] theorem State.onlyDriven_nowInput (s : State) (v : Input) : (s.onlyDriven v).nowInput = v := rfl

/-! ### The current inputs -/

theorem State.nowInput_of_cons (s : State) (v : Input) (rest : List Input) (h : s.inputs = v :: rest) :
    s.nowInput = v := by
  simp [State.nowInput, h]

theorem State.nowInput_of_nil (s : State) (h : s.inputs = []) : s.nowInput = Input.undriven s.drawStream s.drawIdx := by
  simp [State.nowInput, h]

end Sys2Proof.Machine
end

