-- ==== Sys2Proof/Laws/Ops.lean ====
section
/-!
SUPPORT. What each shared operation can do, said once: later proofs cite these and do not unfold the operations.
-/

namespace Sys2Proof.Machine

/-! ### FSM states and their codes -/

@[simp] theorem FsmState.ofCode_code (q : FsmState) : FsmState.ofCode q.code = some q := by
  cases q <;> rfl

theorem FsmState.code_injective {p q : FsmState} (h : p.code = q.code) : p = q := by
  simpa using congrArg FsmState.ofCode h

/-- The legal codes are the codes of the three states (R80). -/
theorem FsmState.legal_iff (c : FsmCode) : c ≠ 0b11 ↔ ∃ q : FsmState, c = q.code := by
  constructor
  · intro h
    have : c = 0b00 ∨ c = 0b01 ∨ c = 0b10 := by revert h; revert c; decide
    rcases this with h | h | h
    · exact ⟨.IDLE, h⟩
    · exact ⟨.CALC, h⟩
    · exact ⟨.DONE, h⟩
  · rintro ⟨q, rfl⟩
    cases q <;> decide

theorem FsmState.code_legal (q : FsmState) : q.code ≠ 0b11 := (FsmState.legal_iff _).2 ⟨q, rfl⟩

theorem State.Legal.exists_state {s : State} (h : s.Legal) : ∃ q : FsmState, s.S = q.code :=
  (FsmState.legal_iff s.S).1 h

/-! ### Reset and the transition function -/

@[simp] theorem afterReset_true (q : FsmState) : afterReset true q = .IDLE := rfl

@[simp] theorem afterReset_false (q : FsmState) : afterReset false q = q := rfl

/-! ### Outputs of a cycle -/

@[simp] theorem outputsOf_reqRdy (v : Input) (rdy en : Bool) (r : Word) : (outputsOf v rdy en r).reqRdy = rdy := rfl

@[simp] theorem outputsOf_respEn (v : Input) (rdy en : Bool) (r : Word) : (outputsOf v rdy en r).respEn = en := rfl

@[simp] theorem outputsOf_respMsg (v : Input) (rdy en : Bool) (r : Word) : (outputsOf v rdy en r).respMsg = r := rfl

@[simp] theorem outputsOf_reqFire (v : Input) (rdy en : Bool) (r : Word) :
    (outputsOf v rdy en r).reqFire = (v.reqEn && rdy) := rfl

@[simp] theorem outputsOf_respFire (v : Input) (rdy en : Bool) (r : Word) :
    (outputsOf v rdy en r).respFire = (en && v.respRdy) := rfl

/-! ### The current cycle's rows -/

theorem decodeCtrl_idle (b : Word) : decodeCtrl (ctrlWord FsmState.IDLE.code b) = .idleLoad (bLsb b) := by
  simp only [ctrlWord]
  generalize bLsb b = x
  revert x; decide

theorem decodeCtrl_calc_odd (b : Word) (h : bLsb b = 1) :
    decodeCtrl (ctrlWord FsmState.CALC.code b) = .calcShiftAdd := by
  simp only [ctrlWord, h]; decide

theorem decodeCtrl_calc_even (b : Word) (h : bLsb b = 0) :
    decodeCtrl (ctrlWord FsmState.CALC.code b) = .calcShift := by
  simp only [ctrlWord, h]; decide

theorem decodeCtrl_done (b : Word) : decodeCtrl (ctrlWord FsmState.DONE.code b) = .doneHold (bLsb b) := by
  simp only [ctrlWord]
  generalize bLsb b = x
  revert x; decide

theorem decodeCtrl_reserved (b : Word) : decodeCtrl (ctrlWord 0b11 b) = .state3Reserved (bLsb b) := by
  simp only [ctrlWord]
  generalize bLsb b = x
  revert x; decide

/-- A bit is 0 or 1. -/
theorem bLsb_cases (b : Word) : bLsb b = 0 ∨ bLsb b = 1 := by
  generalize bLsb b = x
  revert x; decide

/-- An odd `B` is shifted by one (R100). -/
theorem shiftAmount_odd (b : Word) (h : bLsb b = 1) : shiftAmount b = 1 := by
  have h0 : (shamtIn b).getLsbD 0 = true := by
    have := congrArg (fun x : BitVec 1 => x.getLsbD 0) h
    simpa [bLsb, shamtIn] using this
  simp [shiftAmount, shamtOf, h0]

/-! ### Sequencing -/

@[simp] theorem Result.andThen_next (t : State) (f : State → Result) : Result.andThen (.next t) f = f t := rfl

@[simp] theorem Result.andThen_fault (x : Fault) (f : State → Result) : Result.andThen (.fault x) f = .fault x := rfl

/-- If a sequence answers a next state, both parts do. -/
theorem Result.andThen_eq_next {r : Result} {f : State → Result} {t : State} (h : Result.andThen r f = .next t) :
    ∃ m, r = .next m ∧ f m = .next t := by
  cases r with
  | next m => exact ⟨m, rfl, h⟩
  | fault x => cases h
  | refused x => cases h

/-! ### One clock cycle -/

/-- In a state of the unit a cycle always answers, with what `Step` gives (R160). -/
theorem State.tick_of_code {s : State} {q : FsmState} (h : s.S = q.code) : s.tick = .next (s.cycleFrom q) := by
  simp [State.tick, h]

/-- An IDLE cycle by `Step`: load and clear (R140). -/
theorem State.cycleFrom_IDLE (s : State) :
    s.cycleFrom .IDLE = (s.setShamt (shiftAmount s.B)).endCycle true false
      (afterReset s.nowInput.reset (if s.nowInput.reqEn then .CALC else .IDLE))
      (reqA s.nowInput.reqMsg) (reqB s.nowInput.reqMsg) 0 := by
  simp only [State.cycleFrom, State.endCycle, unitStep, fsmOutputs, datapathNext, State.setShamt_nowInput,
    State.setShamt_R, outputsOf_reqFire, Bool.and_true]
  rfl

/-- A CALC cycle by `Step`: shift, and add where the low bit of `B` is set (R141). -/
theorem State.cycleFrom_CALC (s : State) :
    s.cycleFrom .CALC = (s.setShamt (shiftAmount s.B)).endCycle false false
      (afterReset s.nowInput.reset (if s.B = 0 then .DONE else .CALC))
      (aShifted s.A (shiftAmount s.B)) (bShifted s.B (shiftAmount s.B))
      (if bLsb s.B = 1 then adderSum s.A s.R else s.R) := by
  have hz : (if bZero s.B = true then FsmState.DONE else .CALC) = if s.B = 0 then .DONE else .CALC := by
    simp [bZero]
  have hr : resultMux .add (addMux (if bLsb s.B = 1 then .add else .result) (adderSum s.A s.R) s.R) =
      if bLsb s.B = 1 then adderSum s.A s.R else s.R := by
    split <;> rfl
  simp only [State.cycleFrom, State.endCycle, unitStep, fsmOutputs, datapathNext, State.setShamt_nowInput,
    State.setShamt_R, hz, hr]
  rfl

/-- A DONE cycle by `Step`: hold (R142). -/
theorem State.cycleFrom_DONE (s : State) :
    s.cycleFrom .DONE = (s.setShamt (shiftAmount s.B)).endCycle false s.nowInput.respRdy
      (afterReset s.nowInput.reset (if s.nowInput.respRdy then .IDLE else .DONE))
      (aMux (drawsAt s.drawStream s.drawIdx).dA s.nowInput.reqMsg (aShifted s.A (shiftAmount s.B)))
      (bMux (drawsAt s.drawStream s.drawIdx).dB s.nowInput.reqMsg (bShifted s.B (shiftAmount s.B))) s.R := by
  simp only [State.cycleFrom, State.endCycle, unitStep, fsmOutputs, datapathNext, State.setShamt_nowInput,
    State.setShamt_R, outputsOf_respFire, Bool.and_self]
  rfl

/-- In the reserved code only a reset cycle answers (R80, R130). -/
theorem State.tick_of_reserved {s : State} (h : s.S = 0b11) :
    s.tick = (s.setShamt (shiftAmount s.B)).reservedCycle := by
  have h0 : FsmState.ofCode 0b11 = none := by decide
  simp only [State.tick, h, h0]

/-- Everything a cycle that answers can have done: it ends in one of the three states, moves the surroundings and the
draws on by one, and leaves the waiting requests alone. -/
theorem State.tick_frame {s t : State} (h : s.tick = .next t) :
    (∃ q : FsmState, t.S = q.code) ∧ t.mulQueue = s.mulQueue ∧ t.inputs = s.inputs.tail ∧
      t.drawStream = s.drawStream ∧ t.drawIdx = s.drawIdx + 1 ∧ t.shamt = shiftAmount s.B ∧ t.out.respMsg = s.R := by
  by_cases hs : s.S = 0b11
  · rw [State.tick_of_reserved hs, State.reservedCycle] at h
    split at h
    · cases h; exact ⟨⟨.IDLE, rfl⟩, rfl, rfl, rfl, rfl, rfl, rfl⟩
    · cases h
  · obtain ⟨q, hq⟩ := (FsmState.legal_iff _).1 hs
    rw [State.tick_of_code hq] at h
    cases h
    exact ⟨⟨_, rfl⟩, rfl, rfl, rfl, rfl, rfl, rfl⟩

/-! ### Several units -/

@[simp] theorem Units.step_nil : Units.step [] = .next [] := rfl

/-- One unit's cycle and the others' give the cycle of all. -/
theorem Units.step_cons {u t : State} {us ts : List State} (h : u.runCycle = .next t) (hs : Units.step us = .next ts) :
    Units.step (u :: us) = .next (t :: ts) := by
  simp [Units.step, h, hs]

/-- Everything a cycle of several units that answers can have done: a cycle of the first and a cycle of the others. -/
theorem Units.step_cons_eq_next {u : State} {us rs : List State} (h : Units.step (u :: us) = .next rs) :
    ∃ t ts, u.runCycle = .next t ∧ Units.step us = .next ts ∧ rs = t :: ts := by
  simp only [Units.step] at h
  split at h
  · exact ⟨_, _, ‹_›, ‹_›, by cases h; rfl⟩
  all_goals cases h

/-- The sequences of draws of several units after reset. -/
theorem Units.reset_drawStream (n : Nat) : (Units.reset n).map State.drawStream = List.range n := by
  simp [Units.reset, Function.comp_def]

end Sys2Proof.Machine
end

