-- ==== Sys2Proof/Laws/PerInstr.lean ====
section
/-!
SUPPORT. A statement about every row of the table, one lemma per constructor: an operation is well formed exactly when
its word meets the mask and match of its row of spec/opcode_table.json (30_encoding.md R79, R84; 40_shift_amount.md
R101).
-/

namespace Sys2Proof.Laws

/-- The bits of a word. -/
def Encoded.bits : Encoded → Nat
  | .req m => m.toNat
  | .ctrl w => w.toNat
  | .shamtIn v => v.toNat

/-- `mask` and `match` of an operation's row in spec/opcode_table.json. -/
def rowPattern : Instr → Nat × Nat
  | .mul _ _ => (0, 0)
  | .idleLoad _ => (0b110, 0b000)
  | .calcShiftAdd => (0b111, 0b011)
  | .calcShift => (0b111, 0b010)
  | .doneHold _ => (0b110, 0b100)
  | .state3Reserved _ => (0b110, 0b110)
  | .shamt1Lsb _ => (0x1, 0x1)
  | .shamt1 _ => (0x3, 0x2)
  | .shamt2 _ => (0x7, 0x4)
  | .shamt3 _ => (0xf, 0x8)
  | .shamt4 _ => (0x1f, 0x10)
  | .shamt5 _ => (0x3f, 0x20)
  | .shamt6 _ => (0x7f, 0x40)
  | .shamt7 _ => (0xff, 0x80)
  | .shamt8 _ => (0xff, 0x0)

/-- An operation is well formed exactly when its word meets its row. -/
def MeetsItsRow.Statement (i : Instr) : Prop :=
  i.WellFormed = true ↔ Encoded.bits (encode i) &&& (rowPattern i).1 = (rowPattern i).2

theorem MeetsItsRow.mul (a b : Word) : MeetsItsRow.Statement (.mul a b) := by
  simp [MeetsItsRow.Statement, Instr.WellFormed, rowPattern]

theorem MeetsItsRow.idleLoad (x : BitVec 1) : MeetsItsRow.Statement (.idleLoad x) := by
  revert x; unfold MeetsItsRow.Statement; decide

theorem MeetsItsRow.calcShiftAdd : MeetsItsRow.Statement .calcShiftAdd := by
  unfold MeetsItsRow.Statement; decide

theorem MeetsItsRow.calcShift : MeetsItsRow.Statement .calcShift := by
  unfold MeetsItsRow.Statement; decide

theorem MeetsItsRow.doneHold (x : BitVec 1) : MeetsItsRow.Statement (.doneHold x) := by
  revert x; unfold MeetsItsRow.Statement; decide

theorem MeetsItsRow.state3Reserved (x : BitVec 1) : MeetsItsRow.Statement (.state3Reserved x) := by
  revert x; unfold MeetsItsRow.Statement; decide

theorem MeetsItsRow.shamt1Lsb (input : ShamtIn) : MeetsItsRow.Statement (.shamt1Lsb input) := by
  revert input; unfold MeetsItsRow.Statement; decide

theorem MeetsItsRow.shamt1 (input : ShamtIn) : MeetsItsRow.Statement (.shamt1 input) := by
  revert input; unfold MeetsItsRow.Statement; decide

theorem MeetsItsRow.shamt2 (input : ShamtIn) : MeetsItsRow.Statement (.shamt2 input) := by
  revert input; unfold MeetsItsRow.Statement; decide

theorem MeetsItsRow.shamt3 (input : ShamtIn) : MeetsItsRow.Statement (.shamt3 input) := by
  revert input; unfold MeetsItsRow.Statement; decide

theorem MeetsItsRow.shamt4 (input : ShamtIn) : MeetsItsRow.Statement (.shamt4 input) := by
  revert input; unfold MeetsItsRow.Statement; decide

theorem MeetsItsRow.shamt5 (input : ShamtIn) : MeetsItsRow.Statement (.shamt5 input) := by
  revert input; unfold MeetsItsRow.Statement; decide

theorem MeetsItsRow.shamt6 (input : ShamtIn) : MeetsItsRow.Statement (.shamt6 input) := by
  revert input; unfold MeetsItsRow.Statement; decide

theorem MeetsItsRow.shamt7 (input : ShamtIn) : MeetsItsRow.Statement (.shamt7 input) := by
  revert input; unfold MeetsItsRow.Statement; decide

theorem MeetsItsRow.shamt8 (input : ShamtIn) : MeetsItsRow.Statement (.shamt8 input) := by
  revert input; unfold MeetsItsRow.Statement; decide

end Sys2Proof.Laws
end

