-- ==== Sys2Proof/Tests/Slice0.lean ====
section
/-!
SUPPORT. The model's own tests. Expected values come from the spec: 95_test_vectors.md (vectors S, H, X, T, O, M, Z and
programs P1 to P4) and the tables of 30_encoding.md and 40_shift_amount.md. The last part has a witness for the
hypotheses of every statement.
-/

namespace Sys2Proof.Tests

open Sys2Proof.Machine

/-! ### Well-formedness: every check refuses an ill-formed term -/

theorem test_shamt1Lsb_needs_low_bit : (Instr.shamt1Lsb 0x02).WellFormed = false := by decide
theorem test_shamt1_needs_its_bits : (Instr.shamt1 0x04).WellFormed = false := by decide
theorem test_shamt2_needs_its_bits : (Instr.shamt2 0x08).WellFormed = false := by decide
theorem test_shamt3_needs_its_bits : (Instr.shamt3 0x18).WellFormed = true ∧ (Instr.shamt3 0x10).WellFormed = false := by
  decide
theorem test_shamt4_needs_its_bits : (Instr.shamt4 0x20).WellFormed = false := by decide
theorem test_shamt5_needs_its_bits : (Instr.shamt5 0x40).WellFormed = false := by decide
theorem test_shamt6_needs_its_bits : (Instr.shamt6 0x80).WellFormed = false := by decide
theorem test_shamt7_needs_its_bits : (Instr.shamt7 0x00).WellFormed = false := by decide
theorem test_shamt8_needs_zero : (Instr.shamt8 0x80).WellFormed = false := by decide

/-! ### Decoding: words written out from the spec's encodings -/

/-- R70: `a` is the more-significant half (P1's encoding row). -/
theorem test_decode_mul : decode (.req 0x0000000600000007) = .mul 6 7 := by decide

/-- R79: both values of the bit a row does not read. -/
theorem test_decode_control :
    decode (.ctrl 0b000) = .idleLoad 0 ∧ decode (.ctrl 0b001) = .idleLoad 1 ∧
    decode (.ctrl 0b010) = .calcShift ∧ decode (.ctrl 0b011) = .calcShiftAdd ∧
    decode (.ctrl 0b100) = .doneHold 0 ∧ decode (.ctrl 0b101) = .doneHold 1 ∧
    decode (.ctrl 0b110) = .state3Reserved 0 ∧ decode (.ctrl 0b111) = .state3Reserved 1 := by decide

/-- Vectors H1, H2, H12, H3, H4, H5, H6, H7. -/
theorem test_decode_shamt_low :
    decode (.shamtIn 0x01) = .shamt1Lsb 0x01 ∧ decode (.shamtIn 0xFF) = .shamt1Lsb 0xFF ∧
    decode (.shamtIn 0x07) = .shamt1Lsb 0x07 ∧ decode (.shamtIn 0x02) = .shamt1 0x02 ∧
    decode (.shamtIn 0xFE) = .shamt1 0xFE ∧ decode (.shamtIn 0x04) = .shamt2 0x04 ∧
    decode (.shamtIn 0x28) = .shamt3 0x28 ∧ decode (.shamtIn 0xF0) = .shamt4 0xF0 := by decide

/-- Vectors H10, H11, H8, H9. -/
theorem test_decode_shamt_high :
    decode (.shamtIn 0x60) = .shamt5 0x60 ∧ decode (.shamtIn 0x40) = .shamt6 0x40 ∧
    decode (.shamtIn 0x80) = .shamt7 0x80 ∧ decode (.shamtIn 0x00) = .shamt8 0x00 := by decide

/-- Whole-byte words of the table (log entry 11): the control rows' own matches, then calculator inputs. -/
theorem test_table_words :
    decodeTableWord 64 0x0000000600000007 = some (.mul 6 7) ∧ decodeTableWord 3 0b011 = some .calcShiftAdd ∧
    decodeTableWord 8 0 = some (.idleLoad 0) ∧ decodeTableWord 8 3 = some .calcShiftAdd ∧
    decodeTableWord 8 2 = some .calcShift ∧ decodeTableWord 8 4 = some (.doneHold 0) ∧
    decodeTableWord 8 6 = some (.state3Reserved 0) ∧ decodeTableWord 8 0x80 = some (.shamt7 0x80) := by decide

/-- Bits that are no word of the table are refused by name. -/
theorem test_table_refusals :
    decodeBits 32 7 = .error (.noFormat 32) ∧ decodeBits 3 8 = .error (.tooWide 3 8) ∧
    decodeTableWord 16 0 = none := by
  refine ⟨rfl, rfl, by decide⟩

/-! ### Small states, and what a test reads off a result -/

/-- A cycle's inputs, in the order of R91. -/
def ports (reset reqEn respRdy : Bool) (reqMsg : ReqMsg) : Input :=
  { reset := reset, reqEn := reqEn, respRdy := respRdy, reqMsg := reqMsg }

/-- A unit in a given state with one cycle's inputs listed. -/
def unit (q : FsmState) (a b r : Word) (v : Input) : State :=
  { State.reset with S := q.code, A := a, B := b, R := r, inputs := [v] }

/-- The four state elements after a step that answers. -/
def regs : Result → Option (FsmCode × Word × Word × Word)
  | .next t => some (t.S, t.A, t.B, t.R)
  | .fault _ => none
  | .refused _ => none

/-- `S` and `R` after a step that answers (for DONE, whose `A` and `B` are draws). -/
def codeAndResult : Result → Option (FsmCode × Word)
  | .next t => some (t.S, t.R)
  | .fault _ => none
  | .refused _ => none

/-- `S`, `req_rdy` and `resp_en` of a step that answers (the columns of the T vectors). -/
def handshake : Result → Option (FsmCode × Bool × Bool)
  | .next t => some (t.S, t.out.reqRdy, t.out.respEn)
  | .fault _ => none
  | .refused _ => none

/-- The shift-amount signal after an operation that answers. -/
def signal : Result → Option ShamtOut
  | .next t => some t.shamt
  | .fault _ => none
  | .refused _ => none

/-- The response of a step that answers, if one transferred. -/
def response : Result → Option Word
  | .next t => if t.out.respFire then some t.out.respMsg else none
  | .fault _ => none
  | .refused _ => none

/-- The code a step faults on, if it does. -/
def faultCode : Result → Option FsmCode
  | .next _ => none
  | .fault (.reservedState c) => some c
  | .refused _ => none

/-! ### Cycle-level operations -/

/-- O1. -/
theorem test_idleLoad_accepts :
    regs (exec (.idleLoad 0) (unit .IDLE 1 2 3 (ports false true false 0x0000000600000007))) = some (0b01, 6, 7, 0) := by
  decide

/-- O2. -/
theorem test_idleLoad_waits :
    regs (exec (.idleLoad 1) (unit .IDLE 1 3 3 (ports false false false 0x0000000900000000))) = some (0b00, 9, 0, 0) := by
  decide

/-- O3. -/
theorem test_calcShiftAdd_adds :
    regs (exec .calcShiftAdd (unit .CALC 6 7 0 (ports false true true 0))) = some (0b01, 0xC, 3, 6) := by decide

/-- O4: the sum wraps and `A` loses its bit. -/
theorem test_calcShiftAdd_wraps :
    regs (exec .calcShiftAdd (unit .CALC 0x80000000 1 0x80000000 (ports false false false 0))) = some (0b01, 0, 0, 0) := by
  decide

/-- O6: shift amount 8. -/
theorem test_calcShift_skips :
    regs (exec .calcShift (unit .CALC 1 0x80000000 0 (ports false false false 0))) =
      some (0b01, 0x100, 0x00800000, 0) := by
  decide

/-- O7: the final CALC cycle. -/
theorem test_calcShift_finishes :
    regs (exec .calcShift (unit .CALC 0x30 0 0x2A (ports false false false 0))) = some (0b10, 0x3000, 0, 0x2A) := by
  decide

/-- O10: held, misuse ignored. -/
theorem test_doneHold_holds :
    codeAndResult (exec (.doneHold 0) (unit .DONE 5 4 0x2A (ports false true false 0x1111111122222222))) =
      some (0b10, 0x2A) := by
  decide

/-- O9: the response transfers. -/
theorem test_doneHold_delivers :
    codeAndResult (exec (.doneHold 1) (unit .DONE 5 7 0x2A (ports false false true 0))) = some (0b00, 0x2A) ∧
    response (exec (.doneHold 1) (unit .DONE 5 7 0x2A (ports false false true 0))) = some 0x2A := by
  decide

/-- R80: the fault names the state. -/
theorem test_state3Reserved_faults :
    faultCode (step { State.reset with S := 0b11, B := 1 }) = some 0b11 := by
  decide

/-- R130, Z1: reset leaves any state for IDLE. -/
theorem test_state3Reserved_reset :
    (codeAndResult (step { State.reset with S := 0b11, inputs := [ports true false false 0] })).map Prod.fst =
      some 0b00 := by
  decide

/-! ### Calculator rows -/

/-- H1, H3, H5, H6, H7. -/
theorem test_shamt_rows_low :
    signal (exec (.shamt1Lsb 0x01) State.reset) = some 1 ∧ signal (exec (.shamt1 0x02) State.reset) = some 1 ∧
    signal (exec (.shamt2 0x04) State.reset) = some 2 ∧ signal (exec (.shamt3 0x28) State.reset) = some 3 ∧
    signal (exec (.shamt4 0xF0) State.reset) = some 4 := by
  decide

/-- H10, H11, H8, H9. -/
theorem test_shamt_rows_high :
    signal (exec (.shamt5 0x60) State.reset) = some 5 ∧ signal (exec (.shamt6 0x40) State.reset) = some 6 ∧
    signal (exec (.shamt7 0x80) State.reset) = some 7 ∧ signal (exec (.shamt8 0x00) State.reset) = some 8 := by
  decide

/-- H1 to H12 through the function, R100. -/
theorem test_shamt_function :
    ([0x01, 0xFF, 0x02, 0xFE, 0x04, 0x28, 0xF0, 0x80, 0x00, 0x60, 0x40, 0x07] : List ShamtIn).map shamtOf =
      [1, 1, 1, 1, 2, 3, 4, 7, 8, 5, 6, 1] := by
  decide

/-! ### Datapath, FSM and reset -/

/-- X1, X2, X7, X8. -/
theorem test_datapath :
    aShifted 0x80000001 (shiftAmount 0x00000100) = 0x00000100 ∧
    bShifted 0x00000100 (shiftAmount 0x00000100) = 0x00000001 ∧ adderSum 0xFFFFFFFF 1 = 0 ∧
    bZero 0 = true ∧ bLsb 0 = 0 ∧ shiftAmount 0 = 8 ∧
    bZero 0x80000000 = false ∧ bShifted 0x80000000 (shiftAmount 0x80000000) = 0x00800000 := by
  decide

/-- X3, X4, X5 (the write of `R` is disabled), X6. -/
theorem test_muxes :
    addMux .result 0x5A 0x2A = 0x2A ∧ resultMux .zero 0x5A = 0 ∧
    (datapathNext { a := 1, b := 1, r := 0x2A } 0x0000000600000007
      { reqRdy := false, respEn := false, aSel := .load, bSel := .load, resSel := .zero, resEn := false
        addSel := .add }) = { a := 6, b := 7, r := 0x2A } := by
  decide

/-- T1 to T6. -/
theorem test_transitions :
    handshake (step (unit .IDLE 0 0 0 (ports false false true 0))) = some (0b00, true, false) ∧
    handshake (step (unit .IDLE 0 0 0 (ports false true false 0))) = some (0b01, true, false) ∧
    handshake (step (unit .CALC 0 5 0 (ports false true true 0))) = some (0b01, false, false) ∧
    handshake (step (unit .CALC 0 0 0 (ports false true true 0))) = some (0b10, false, false) ∧
    handshake (step (unit .DONE 0 0 0 (ports false true false 0))) = some (0b10, false, false) ∧
    handshake (step (unit .DONE 0 0 0 (ports false true true 0))) = some (0b00, false, true) := by
  decide

/-- T7, T8, T9, T10. -/
theorem test_transitions_reset :
    handshake (step (unit .CALC 0 0 0 (ports true false false 0))) = some (0b00, false, false) ∧
    handshake (step (unit .DONE 0 0 0 (ports true false true 0))) = some (0b00, false, true) ∧
    handshake (step (unit .IDLE 0 0 0 (ports true true false 0))) = some (0b00, true, false) ∧
    handshake (step (unit .CALC 0 3 0 (ports false true true 0))) = some (0b01, false, false) := by
  decide

/-- Z1 and program P4, cycle 3: a reset cycle writes the registers by the current state's rules. -/
theorem test_reset_keeps_datapath :
    regs (step (unit .CALC 0x14 0x3FFFFFFF 0xF (ports true false false 0))) = some (0b00, 0x28, 0x1FFFFFFF, 0x23) := by
  decide

/-- Z3: a request in the first cycle after reset transfers. -/
theorem test_first_cycle_after_reset :
    regs (step { State.reset with inputs := [ports false true false 0x0000000200000003] }) = some (0b01, 2, 3, 0) := by
  decide

/-- R32: the reset state is IDLE. -/
theorem test_reset_state : State.reset.S = FsmState.IDLE.code := by decide

/-- R91: the first row of program P1, `1 0 0 0…0`, and its second, `0 1 1 0000000600000007`. -/
theorem test_input_vectors :
    (ports true false false 0).vector = 0x40000000000000000 ∧
    (ports false true true 0x0000000600000007).vector = 0x30000000600000007 := by
  decide

/-! ### The whole multiplication -/

/-- M1, from the word of its request. -/
theorem test_mul_word : response (step (State.reset.withFetchWord 64 0x0000000600000007)) = some 0x2A := by rfl

/-- M12: the product 2^32 truncates. -/
theorem test_mul_truncates : response (exec (.mul 0x00010000 0x00010000) State.reset) = some 0 := by rfl

/-- M1, M5, M10, M11, M14: the step counts. -/
theorem test_steps :
    steps 7 = 3 ∧ steps 0 = 0 ∧ steps 0x9ABCDEF0 = 27 ∧ steps 0x80000000 = 5 ∧ steps 0xAAAAAAAA = 32 := by
  decide

/-- M11, M16: the closed form. -/
theorem test_steps_closed : stepsClosed 0x80000000 = 5 ∧ stepsClosed 0x00000101 = 3 := by decide

/-- R188. -/
theorem test_trace :
    (unit .CALC 6 7 0 (ports false false false 0)).traceReport = { tag := 0b01, kind := some .shiftAndAdd } ∧
    (unit .CALC 6 8 0 (ports false false false 0)).traceReport = { tag := 0b01, kind := some .shiftOnly } ∧
    (unit .DONE 6 7 0 (ports false false false 0)).traceReport = { tag := 0b10, kind := none } := by
  decide

/-! ### Witnesses: concrete states and operands that meet the hypotheses of the statements -/

/-- A unit in IDLE with one request listed and nothing after it. -/
def presenting (a b : Word) : State := unit .IDLE 1 2 3 (ports false true false (packReq a b))

theorem witness_DecodeOfEncode :
    (Instr.mul 0xFFFFFFFF 0).WellFormed = true ∧ (Instr.state3Reserved 1).WellFormed = true ∧
    (Instr.shamt7 0x80).WellFormed = true := by decide

/-- One word for each row's clause, with the unread bit at 1 where there is one. -/
theorem witness_ControlRowsByMask :
    (0b001 : CtrlWord) &&& 0b110 = 0b000 ∧ (0b011 : CtrlWord) &&& 0b111 = 0b011 ∧
    (0b010 : CtrlWord) &&& 0b111 = 0b010 ∧ (0b101 : CtrlWord) &&& 0b110 = 0b100 ∧
    (0b111 : CtrlWord) &&& 0b110 = 0b110 := by decide

/-- The greatest input of each row's clause. -/
theorem witness_ShamtRowsByMask :
    (0xFF : ShamtIn) &&& 0x01 = 0x01 ∧ (0xFE : ShamtIn) &&& 0x03 = 0x02 ∧ (0xFC : ShamtIn) &&& 0x07 = 0x04 ∧
    (0xF8 : ShamtIn) &&& 0x0F = 0x08 ∧ (0xF0 : ShamtIn) &&& 0x1F = 0x10 ∧ (0xE0 : ShamtIn) &&& 0x3F = 0x20 ∧
    (0xC0 : ShamtIn) &&& 0x7F = 0x40 ∧ (0x80 : ShamtIn) &&& 0xFF = 0x80 ∧ (0x00 : ShamtIn) &&& 0xFF = 0x00 := by
  decide

theorem witness_ShamtCountsTrailingZeros :
    (0x01 : ShamtIn).getLsbD 0 = true ∧ ((0x80 : ShamtIn).getLsbD 0 = false ∧ (0x80 : ShamtIn) ≠ 0) ∧
    (7 : Nat) < (shamtOf 0x00).toNat := by decide

theorem witness_ShiftDiscardsOnlyZeros :
    ((0x80000000 : Word).getLsbD 0 = false ∧ (0x80000000 : Word) ≠ 0) ∧ 7 < (shiftAmount 0x80000000).toNat ∧
    (0xFFFFFFFF : Word).getLsbD 0 = true := by decide

/-- A bundle for the clauses of the two muxes, the enable and the result's three sources. -/
def bundle (sel : LoadSel) (resSel : ResultSel) (resEn : Bool) (addSel : AddSel) : Control :=
  { reqRdy := false, respEn := false, aSel := sel, bSel := sel, resSel := resSel, resEn := resEn, addSel := addSel }

theorem witness_DatapathFollowsTheSelects :
    ((bundle .load .zero true .add).aSel.bit = 0 ∧ (bundle .load .zero true .add).bSel.bit = 0) ∧
    ((bundle .shift .add true .add).aSel.bit = 1 ∧ (bundle .shift .add true .add).bSel.bit = 1) ∧
    (bundle .load .zero false .add).resEn = false ∧
    ((bundle .load .zero true .add).resEn = true ∧ (bundle .load .zero true .add).resSel.bit = 1) ∧
    ((bundle .shift .add true .add).resEn = true ∧ (bundle .shift .add true .add).resSel.bit = 0 ∧
      (bundle .shift .add true .add).addSel.bit = 0) ∧
    ((bundle .shift .add true .result).resEn = true ∧ (bundle .shift .add true .result).resSel.bit = 0 ∧
      (bundle .shift .add true .result).addSel.bit = 1) := by decide

theorem witness_ReservedStateFaults : ({ State.reset with S := 0b11 } : State).nowInput.reset = false := by decide

theorem witness_ReservedStateIsLeftByReset :
    ({ State.reset with S := 0b11, inputs := [ports true true true 0] } : State).nowInput.reset = true := by decide

theorem witness_ShamtRowsDriveTheSignal :
    (Instr.shamt1Lsb 0xFF).WellFormed = true ∧ (Instr.shamt1 0xFE).WellFormed = true ∧
    (Instr.shamt2 0xFC).WellFormed = true ∧ (Instr.shamt3 0xF8).WellFormed = true ∧
    (Instr.shamt4 0xF0).WellFormed = true ∧ (Instr.shamt5 0xE0).WellFormed = true ∧
    (Instr.shamt6 0xC0).WellFormed = true ∧ (Instr.shamt7 0x80).WellFormed = true ∧
    (Instr.shamt8 0x00).WellFormed = true := by decide

theorem witness_StepRunsTheDecodedRows :
    State.reset.mulQueue = [] ∧ ({ State.reset with mulQueue := [7, 8] } : State).mulQueue = 7 :: [8] := ⟨rfl, rfl⟩

theorem witness_StepIsTheSpecsStep :
    (unit .IDLE 1 2 3 (ports false true true 5)).S = FsmState.IDLE.code ∧
    (unit .CALC 1 2 3 (ports true true true 5)).S = FsmState.CALC.code ∧
    (unit .DONE 1 2 3 (ports false true true 5)).S = FsmState.DONE.code ∧
    (unit .DONE 1 2 3 (ports false true true 5)).Clocked := by decide

theorem witness_ResetDominates :
    (unit .CALC 1 2 3 (ports true true true 5)).Legal ∧ (unit .CALC 1 2 3 (ports true true true 5)).Clocked ∧
    (unit .CALC 1 2 3 (ports true true true 5)).nowInput.reset = true := by decide

theorem witness_ResetTouchesOnlyTheFsm :
    (unit .DONE 1 2 3 (ports false true true 5)).Legal ∧ (unit .DONE 1 2 3 (ports false true true 5)).Clocked := by decide

/-- One state for each side of both equivalences. -/
theorem witness_TransfersHappenExactlyWhen :
    (presenting 6 7).Legal ∧ (presenting 6 7).Clocked ∧ (presenting 6 7).nowInput.reqEn = true ∧
    (unit .DONE 1 2 3 (ports false true true 5)).Legal ∧
    (unit .DONE 1 2 3 (ports false true true 5)).nowInput.respRdy = true := by decide

theorem witness_HandshakeDependsOnStateAndReady :
    (unit .DONE 1 2 3 (ports false true true 5)).Legal ∧ (unit .DONE 1 2 3 (ports false true true 5)).Clocked ∧
    (unit .DONE 4 5 6 (ports true false true 9)).Clocked ∧
    (unit .DONE 4 5 6 (ports true false true 9)).S = (unit .DONE 1 2 3 (ports false true true 5)).S ∧
    (unit .DONE 4 5 6 (ports true false true 9)).nowInput.respRdy =
      (unit .DONE 1 2 3 (ports false true true 5)).nowInput.respRdy := by decide

theorem witness_RequestMisuseIsNoOp :
    (unit .CALC 1 2 3 (ports false true true 5)).Clocked ∧
    (unit .CALC 1 2 3 (ports false true true 5)).S = FsmState.CALC.code ∧
    (unit .DONE 1 2 3 (ports false true true 5)).Clocked ∧
    (unit .DONE 1 2 3 (ports false true true 5)).S = FsmState.DONE.code := by decide

theorem witness_ResponseMisuseIsNoOp :
    (unit .IDLE 1 2 3 (ports false true true 5)).Clocked ∧
    (unit .IDLE 1 2 3 (ports false true true 5)).S = FsmState.IDLE.code ∧
    (unit .CALC 1 2 3 (ports false true true 5)).S = FsmState.CALC.code := by decide

/-- Both sides of the second clause. -/
theorem witness_DrawsNeverReachTheBoundary :
    (presenting 6 7).Legal ∧ (presenting 6 7).Clocked ∧ (presenting 6 7).inputs ≠ [] ∧
    (presenting 6 7).S ≠ FsmState.DONE.code ∧
    (unit .DONE 1 2 3 (ports false true true 5)).inputs ≠ [] ∧
    (unit .DONE 1 2 3 (ports false true true 5)).S = FsmState.DONE.code := by decide

/-- Two units that differ in `A` and `B`, in IDLE and in DONE. -/
theorem witness_StaleOperandsAreNeverSeen :
    (unit .IDLE 1 2 3 (ports false true true 5)).Clocked ∧
    SameOutside (unit .IDLE 1 2 3 (ports false true true 5)) (unit .IDLE 8 9 3 (ports false true true 5)) ∧
    (unit .IDLE 1 2 3 (ports false true true 5)).S = FsmState.IDLE.code ∧
    SameOutside (unit .DONE 1 2 3 (ports false true true 5)) (unit .DONE 8 9 3 (ports false true true 5)) ∧
    (unit .DONE 1 2 3 (ports false true true 5)).S = FsmState.DONE.code :=
  ⟨rfl, ⟨rfl, rfl, rfl, rfl, rfl, rfl, rfl, rfl, rfl⟩, rfl, ⟨rfl, rfl, rfl, rfl, rfl, rfl, rfl, rfl, rfl⟩, rfl⟩

theorem witness_LegalStateIsKept : (presenting 6 7).Legal ∧ ∃ t, step (presenting 6 7) = .next t :=
  ⟨by decide, _, rfl⟩

theorem witness_LegalStateNeverStops : (unit .DONE 1 2 3 (ports true true true 5)).Legal := by decide

/-- The unit in CALC, one response delivered and the second request, 6 times 7, under way. -/
def underWay : State :=
  { unit .CALC 12 3 6 (ports false false false 0) with accepted := [packReq 6 7, packReq 2 5], delivered := [10] }

/-- The unit in DONE, the product of 6 and 7 not yet taken. -/
def untaken : State :=
  { unit .DONE 1 2 42 (ports false false true 0) with accepted := [packReq 6 7, packReq 2 5], delivered := [10] }

/-- The account in each of the three states, and a step from each. -/
theorem witness_AccountIsKept :
    (presenting 6 7).Accounted ∧ (∃ t, step (presenting 6 7) = .next t) ∧
    underWay.Accounted ∧ (∃ t, step underWay = .next t) ∧
    untaken.Accounted ∧ (∃ t, step untaken = .next t) := by
  refine ⟨rfl, ⟨_, rfl⟩, ?_, ⟨_, rfl⟩, ?_, ⟨_, rfl⟩⟩
  · exact ⟨packReq 6 7, [packReq 2 5], rfl, by decide, by decide⟩
  · exact ⟨packReq 6 7, [packReq 2 5], rfl, by decide, by decide⟩

theorem witness_ResponsesAnswerRequestsInOrder : underWay.Accounted ∧ 0 < underWay.delivered.length :=
  ⟨⟨packReq 6 7, [packReq 2 5], rfl, by decide, by decide⟩, by decide⟩

/-- Both with `B ≠ 0` and with `B = 0`, where the CALC loop ends. -/
theorem witness_CalcCycleKeepsTheLoopInvariant :
    underWay.Clocked ∧ underWay.S = FsmState.CALC.code ∧ underWay.B ≠ 0 ∧
    (unit .CALC 0x30 0 0x2A (ports false false false 0)).Clocked ∧
    (unit .CALC 0x30 0 0x2A (ports false false false 0)).S = FsmState.CALC.code ∧
    (unit .CALC 0x30 0 0x2A (ports false false false 0)).B = 0 ∧
    (unit .CALC 0x30 0 0x2A (ports false false false 0)).nowInput.reset = false := by decide

theorem witness_CalcCycleShrinksB :
    (unit .CALC 1 1 0 (ports false false false 0)).Clocked ∧
    (unit .CALC 1 1 0 (ports false false false 0)).S = FsmState.CALC.code ∧
    (unit .CALC 1 1 0 (ports false false false 0)).B ≠ 0 := by decide

theorem witness_StepCountRecursion : (0x80000000 : Word) ≠ 0 := by decide

/-- A request of `presenting` transfers at once. -/
theorem presenting_accepts (a b : Word) : (presenting a b).Accepts a b := ⟨rfl, rfl, rfl, rfl, rfl⟩

/-- Nothing after the first cycle is listed, so no reset comes. -/
theorem presenting_noReset (a b : Word) (n : Nat) : (presenting a b).NoResetFor n := by
  intro k v _ h
  cases k with
  | zero => cases h; rfl
  | succ k => cases h

/-- With both ends of the range of `k`: the first CALC cycle and the last. -/
theorem witness_LatencyAndProduct :
    (presenting 6 7).Accepts 6 7 ∧ (presenting 6 7).NoResetFor (steps 7 + 2) ∧
    (1 ≤ 1 ∧ 1 ≤ steps 7 + 1) ∧ (1 ≤ 4 ∧ 4 = steps 7 + 1) :=
  ⟨presenting_accepts 6 7, presenting_noReset 6 7 _, by decide, by decide⟩

theorem witness_ResultIsHeldUntilTaken :
    (unit .DONE 1 2 0x2A (ports false true false 0)).Clocked ∧
    (unit .DONE 1 2 0x2A (ports false true false 0)).S = FsmState.DONE.code ∧
    ∀ k v, k < 3 → (unit .DONE 1 2 0x2A (ports false true false 0)).inputs[k]? = some v →
      v.reset = false ∧ v.respRdy = false := by
  refine ⟨rfl, rfl, ?_⟩
  intro k v _ h
  cases k with
  | zero => cases h; exact ⟨rfl, rfl⟩
  | succ k => cases h

/-- The request of `presenting 5 0`, then a CALC cycle, two DONE cycles in which the consumer stalls, and one in which
it is ready. -/
def stalled : State :=
  (presenting 5 0).withInputs [ports false true false (packReq 5 0), ports false false true 0,
    ports false false false 0, ports false false false 0, ports false false true 0]

/-- Two cycles of stall; `steps 0 = 0`. -/
theorem witness_ResponseArrivesWithTheProduct :
    stalled.Accepts 5 0 ∧ stalled.NoResetFor (steps 0 + 3 + 2) ∧
    (∀ k v, steps 0 + 2 ≤ k → k < steps 0 + 2 + 2 → stalled.inputs[k]? = some v → v.respRdy = false) ∧
    ∃ v, stalled.inputs[steps 0 + 2 + 2]? = some v ∧ v.respRdy = true := by
  refine ⟨⟨rfl, rfl, rfl, rfl, rfl⟩, ?_, ?_, ⟨_, rfl, rfl⟩⟩
  · intro k v _ h
    match k, h with
    | 0, h => cases h; rfl
    | 1, h => cases h; rfl
    | 2, h => cases h; rfl
    | 3, h => cases h; rfl
    | 4, h => cases h; rfl
    | _ + 5, h => cases h
  · have h0 : steps 0 = 0 := by decide
    rw [h0]
    intro k v h1 h2 h
    match k, h1, h2, h with
    | 2, _, _, h => cases h; rfl
    | 3, _, _, h => cases h; rfl

/-- No stall at all: the least value of the wait. -/
theorem witness_ResponseArrivesWithTheProduct_at_once :
    ((presenting 5 0).withInputs [ports false true false (packReq 5 0), ports false false true 0,
      ports false false true 0]).Accepts 5 0 ∧
    ∃ v, ((presenting 5 0).withInputs [ports false true false (packReq 5 0), ports false false true 0,
      ports false false true 0]).inputs[steps 0 + 2 + 0]? = some v ∧ v.respRdy = true :=
  ⟨⟨rfl, rfl, rfl, rfl, rfl⟩, _, rfl, rfl⟩

theorem witness_NextRequestTransfersAtOnce :
    ((unit .DONE 1 2 42 (ports false false true 0)).withInputs
      [ports false false true 0, ports false true true 9]).Clocked ∧
    ((unit .DONE 1 2 42 (ports false false true 0)).withInputs
      [ports false false true 0, ports false true true 9]).S = FsmState.DONE.code ∧
    ((unit .DONE 1 2 42 (ports false false true 0)).withInputs
      [ports false false true 0, ports false true true 9]).inputs =
        ports false false true 0 :: ports false true true 9 :: [] ∧
    (ports false false true 0).reset = false ∧ (ports false false true 0).respRdy = true ∧
    (ports false true true 9).reset = false ∧ (ports false true true 9).reqEn = true := by decide

/-- The request of `presenting 5 0`, then a CALC cycle, a DONE cycle with a ready consumer, and the next request. -/
def busy : State :=
  (presenting 5 0).withInputs [ports false true false (packReq 5 0), ports false true true 9, ports false true true 9,
    ports false true true 9]

/-- `steps 0 = 0`. -/
theorem witness_NextRequestTransfersAtOnce_throughput :
    busy.Accepts 5 0 ∧ busy.NoResetFor (steps 0 + 4) ∧
    (∃ v, busy.inputs[steps 0 + 2]? = some v ∧ v.respRdy = true) ∧
    ∃ v, busy.inputs[steps 0 + 3]? = some v ∧ v.reqEn = true ∧ v.reqMsg = 9 := by
  refine ⟨⟨rfl, rfl, rfl, rfl, rfl⟩, ?_, ⟨_, rfl, rfl⟩, ⟨_, rfl, rfl, rfl⟩⟩
  intro k v _ h
  match k, h with
  | 0, h => cases h; rfl
  | 1, h => cases h; rfl
  | 2, h => cases h; rfl
  | 3, h => cases h; rfl
  | _ + 4, h => cases h

theorem witness_OnlyResetAbandonsAnOperation :
    underWay.Clocked ∧ underWay.S = FsmState.CALC.code ∧ untaken.Clocked ∧ untaken.S = FsmState.DONE.code ∧
    (ports false true true 4).reset = false ∧ (ports false false true 5).reset = false ∧
    (ports false false true 5).respRdy = (ports false true true 4).respRdy := by decide

/-- From the middle of a multiplication: a reset cycle, then a request. -/
theorem witness_ReadyRightAfterReset :
    (underWay.withInputs [ports true false false 0, ports false true false 9]).Legal ∧
    (underWay.withInputs [ports true false false 0, ports false true false 9]).Clocked ∧
    (underWay.withInputs [ports true false false 0, ports false true false 9]).inputs =
      ports true false false 0 :: ports false true false 9 :: [] ∧
    (ports true false false 0).reset = true ∧ (ports false true false 9).reset = false ∧
    (ports false true false 9).reqEn = true := by decide

theorem witness_HandshakeDuringReset :
    (unit .IDLE 1 2 3 (ports true true false 5)).Clocked ∧
    (unit .IDLE 1 2 3 (ports true true false 5)).nowInput.reset = true ∧
    (unit .IDLE 1 2 3 (ports true true false 5)).S = FsmState.IDLE.code ∧
    (unit .IDLE 1 2 3 (ports true true false 5)).nowInput.reqEn = true ∧
    (unit .DONE 1 2 3 (ports true false true 5)).nowInput.reset = true ∧
    (unit .DONE 1 2 3 (ports true false true 5)).S = FsmState.DONE.code ∧
    (unit .DONE 1 2 3 (ports true false true 5)).nowInput.respRdy = true := by decide

/-- From IDLE, and from the middle of another multiplication. -/
theorem witness_MulDeliversTheProduct :
    State.reset.Legal ∧ State.reset.S = FsmState.IDLE.code ∧ (∀ v ∈ State.reset.inputs, v.reset = false) ∧
    underWay.Legal ∧ (∀ v ∈ underWay.inputs, v.reset = false) := by decide

theorem witness_MulIsItsCycles :
    State.reset.Clocked ∧ State.reset.S = FsmState.IDLE.code ∧ State.reset.inputs = [] := by decide

/-- The unit in IDLE with a reset listed for the second CALC cycle of a multiplication by 1, the last one. -/
def resetSoon : State :=
  { State.reset with
    inputs := [ports false false true 0, ports false false true 0, ports true false false 0] }

/-- The greatest `k`: `steps 1 + 1 = 2`. -/
theorem witness_MulIsAbandonedByReset :
    resetSoon.S = FsmState.IDLE.code ∧ resetSoon.NoResetFor 2 ∧ 1 ≤ 2 ∧ 2 = steps 1 + 1 ∧
    resetSoon.inputs[2]? = some (ports true false false 0) ∧ (ports true false false 0).reset = true := by
  refine ⟨rfl, ?_, by decide, by decide, rfl, rfl⟩
  intro k v hk h
  match k, hk, h with
  | 0, _, h => cases h; rfl
  | 1, _, h => cases h; rfl

/-- The least `k`: the first CALC cycle. -/
theorem witness_MulIsAbandonedByReset_first :
    ({ State.reset with inputs := [ports false false true 0, ports true false false 0] } : State).NoResetFor 1 ∧
    ({ State.reset with inputs := [ports false false true 0, ports true false false 0] } : State).inputs[1]? =
      some (ports true false false 0) := by
  refine ⟨?_, rfl⟩
  intro k v hk h
  match k, hk, h with
  | 0, _, h => cases h; rfl

theorem witness_MulForgetsThePast :
    State.reset.Legal ∧ underWay.Legal ∧ (∀ v ∈ State.reset.inputs, v.reset = false) ∧
    ∀ v ∈ underWay.inputs, v.reset = false := by decide

theorem witness_MulOfSignedReadings :
    (presenting 6 7).Legal ∧ ∀ v ∈ (presenting 6 7).inputs, v.reset = false := by decide

/-- `b = 0`, and `a = 0` with another `b`. -/
theorem witness_ZeroOperands :
    (presenting 5 0).Accepts 5 0 ∧ (presenting 5 0).NoResetFor (steps 0 + 2) ∧
    (presenting 0 5).Accepts 0 5 ∧ (presenting 0 5).NoResetFor (steps 5 + 2) :=
  ⟨presenting_accepts 5 0, presenting_noReset 5 0 _, presenting_accepts 0 5, presenting_noReset 0 5 _⟩

/-- Two units, the second with draws of its own and a request waiting to be run as a whole. -/
def pair : List State := [presenting 6 7, { underWay with drawStream := 1, mulQueue := [9] }]

theorem witness_UnitsAreIndependent :
    (∀ u ∈ pair, u.Legal) ∧ Units.OwnDraws pair ∧
    pair[1]? = some { underWay with drawStream := 1, mulQueue := [9] } ∧
    ({ underWay with drawStream := 1, mulQueue := [9] } : State).S = FsmState.CALC.code := by
  refine ⟨by decide, ?_, rfl, rfl⟩
  unfold Units.OwnDraws
  decide

theorem witness_UnitsResetWithOwnDraws : { State.reset with drawStream := 1 } ∈ Units.reset 2 := by decide

/-- R187: each of two units runs one cycle of its own (O1, and CALC_SHIFT_ADD as in P1), also the one with a whole MUL
waiting, which stays waiting. -/
theorem test_units_step :
    (match Units.step pair with
      | .next ts => ts.map fun t => (t.S, t.A, t.B, t.R, t.mulQueue)
      | .fault _ => []
      | .refused _ => []) = [(0b01, 6, 7, 0, []), (0b01, 24, 1, 18, [9])] := by decide

/-- A script's bench, its unit in a given state. -/
def bench (s : State) : Bench :=
  { unit := s, resetLeft := 0, requester := [.present (packReq 6 7)], consumer := [.take 42], assertResetAt := [3]
    cycle := 0, mismatches := [] }

/-- With the unit in each of the three states. -/
theorem witness_CommandsRepeatUntilTransfer :
    State.reset.Legal ∧ (bench State.reset).resetting = false ∧
    (bench State.reset).requester = .present (packReq 6 7) :: [] ∧ (bench State.reset).consumer = .take 42 :: [] ∧
    State.reset.S = FsmState.IDLE.code ∧ underWay.Legal ∧ (bench underWay).resetting = false ∧
    underWay.S = FsmState.CALC.code ∧ untaken.Legal ∧ (bench untaken).resetting = false ∧
    untaken.S = FsmState.DONE.code := by decide

theorem witness_MulScriptReceivesTheProduct : State.reset.S = FsmState.IDLE.code := by decide

end Sys2Proof.Tests
end

/-! ## Proofs: one clock cycle, through the rows that `step` runs -/

namespace Sys2Proof.Machine

/-! ### The calculator's rows -/

/-- The value a row of R101 drives `Shamt` with; an operation of another format drives none. -/
def drivenShamt : Instr → Option ShamtOut
  | .shamt1Lsb _ | .shamt1 _ => some 1
  | .shamt2 _ => some 2
  | .shamt3 _ => some 3
  | .shamt4 _ => some 4
  | .shamt5 _ => some 5
  | .shamt6 _ => some 6
  | .shamt7 _ => some 7
  | .shamt8 _ => some 8
  | .mul _ _ | .idleLoad _ | .calcShiftAdd | .calcShift | .doneHold _ | .state3Reserved _ => none

/-- A calculator row writes the shift-amount signal and nothing else (R103). -/
theorem exec_of_drivenShamt {i : Instr} {k : ShamtOut} (h : drivenShamt i = some k) (s : State) :
    exec i s = .next (s.setShamt k) := by
  cases i <;> cases h <;> rfl

/-- The row an input selects drives the trailing-zero count of R100: the truth table of R101 says the same. -/
theorem drivenShamt_decodeShamt (v : ShamtIn) : drivenShamt (decodeShamt v) = some (shamtOf v) := by
  revert v; decide

/-- The calculator's part of a cycle. -/
theorem exec_shamtRow (s : State) : exec s.shamtRow s = .next (s.setShamt (shiftAmount s.B)) :=
  exec_of_drivenShamt (drivenShamt_decodeShamt (shamtIn s.B)) s

/-! ### The control rows: each, run in the state it is decoded in, is that state's `Step` (R160) -/

theorem execIdleLoad_setShamt (x : BitVec 1) (s : State) :
    execIdleLoad x (s.setShamt (shiftAmount s.B)) = .next (s.cycleFrom .IDLE) := by
  rw [State.cycleFrom_IDLE]; rfl

theorem execCalcShiftAdd_setShamt {s : State} (h : bLsb s.B = 1) :
    execCalcShiftAdd (s.setShamt (shiftAmount s.B)) = .next (s.cycleFrom .CALC) := by
  have hB : s.B ≠ 0 := by
    intro h0
    rw [h0] at h
    exact absurd h (by decide)
  rw [State.cycleFrom_CALC, if_pos h, if_neg hB, shiftAmount_odd s.B h]
  rfl

theorem execCalcShift_setShamt {s : State} (h : bLsb s.B = 0) :
    execCalcShift (s.setShamt (shiftAmount s.B)) = .next (s.cycleFrom .CALC) := by
  have h1 : bLsb s.B ≠ 1 := by simp [h]
  rw [State.cycleFrom_CALC, if_neg h1]
  rfl

theorem execDoneHold_setShamt (x : BitVec 1) (s : State) :
    execDoneHold x (s.setShamt (shiftAmount s.B)) = .next (s.cycleFrom .DONE) := by
  rw [State.cycleFrom_DONE]; rfl

/-- The control row of a cycle, after the calculator's row, in each of the three states. -/
theorem exec_ctrlRow_of_code {s : State} {q : FsmState} (h : s.S = q.code) :
    exec s.ctrlRow (s.setShamt (shiftAmount s.B)) = .next (s.cycleFrom q) := by
  rw [State.ctrlRow, h]
  cases q with
  | IDLE => rw [decodeCtrl_idle]; exact execIdleLoad_setShamt (bLsb s.B) s
  | CALC =>
    rcases bLsb_cases s.B with hb | hb
    · rw [decodeCtrl_calc_even _ hb]; exact execCalcShift_setShamt hb
    · rw [decodeCtrl_calc_odd _ hb]; exact execCalcShiftAdd_setShamt hb
  | DONE => rw [decodeCtrl_done]; exact execDoneHold_setShamt (bLsb s.B) s

/-! ### One clock cycle -/

/-- The calculator's row and then the control row make exactly one `Step`, in the reserved code too (R160, R17). -/
theorem State.runCycle_eq_tick (s : State) : s.runCycle = s.tick := by
  rw [State.runCycle, exec_shamtRow, Result.andThen_next]
  by_cases hs : s.S = 0b11
  · rw [State.ctrlRow, hs, decodeCtrl_reserved, State.tick_of_reserved hs]; rfl
  · obtain ⟨q, hq⟩ := State.Legal.exists_state hs
    rw [exec_ctrlRow_of_code hq, State.tick_of_code hq]

theorem step_of_clocked {s : State} (h : s.Clocked) : step s = s.tick := by
  rw [step, State.runNext, h]
  exact s.runCycle_eq_tick

/-- A clocked step from one of the three states always answers, with what `Step` gives (R160). -/
theorem step_of_clocked_of_code {s : State} {q : FsmState} (h : s.Clocked) (hq : s.S = q.code) :
    step s = .next (s.cycleFrom q) := by
  rw [step_of_clocked h, State.tick_of_code hq]

/-! ### What reset reaches in a cycle (R33) -/

/-- The cycle's outputs do not read reset. -/
theorem unitStep_out_reset (q : FsmState) (d : DataRegs) (v : Input) (w : Draws) (b : Bool) :
    (unitStep q d { v with reset := b } w).out = (unitStep q d v w).out := rfl

/-- The next data registers do not read reset. -/
theorem unitStep_regs_reset (q : FsmState) (d : DataRegs) (v : Input) (w : Draws) (b : Bool) :
    (unitStep q d { v with reset := b } w).regs = (unitStep q d v w).regs := rfl

/-- Reset dominates the next state (R130). -/
theorem unitStep_next_of_reset (q : FsmState) (d : DataRegs) {v : Input} (w : Draws) (h : v.reset = true) :
    (unitStep q d v w).next = .IDLE := by
  simp only [unitStep, h, afterReset_true]

/-- What `Step` gives in the state `q` on the ports `v`, from the unit's registers and draws (R160). -/
def State.stepOn (q : FsmState) (s : State) (v : Input) : StepResult :=
  unitStep q { a := s.A, b := s.B, r := s.R } v (drawsAt s.drawStream s.drawIdx)

/-- A cycle on listed ports commits what `Step` gives on them. -/
theorem State.cycleFrom_withInputs (q : FsmState) (s : State) (v : Input) (rest : List Input) :
    (s.withInputs (v :: rest)).cycleFrom q =
      ((s.withInputs (v :: rest)).setShamt (shiftAmount s.B)).commit (s.stepOn q v).out (s.stepOn q v).next.code
        (s.stepOn q v).regs := rfl

/-- Settles O24: in each of the three states both cycles answer with `Step`, whose outputs and next data registers do not
read reset. -/
theorem resetTouchesOnlyTheFsm : Obligations.ResetTouchesOnlyTheFsm := by
  intro s v rest hlegal hclocked
  obtain ⟨q, hq⟩ := hlegal.exists_state
  have hstep (b : Bool) : step (s.withInputs ({ v with reset := b } :: rest)) =
      .next ((s.withInputs ({ v with reset := b } :: rest)).cycleFrom q) :=
    step_of_clocked_of_code hclocked hq
  have hregs : (s.stepOn q { v with reset := true }).regs = (s.stepOn q { v with reset := false }).regs := by
    simp only [State.stepOn, unitStep_regs_reset]
  have hout : (s.stepOn q { v with reset := true }).out = (s.stepOn q { v with reset := false }).out := by
    simp only [State.stepOn, unitStep_out_reset]
  have hnext : (s.stepOn q { v with reset := true }).next = .IDLE := unitStep_next_of_reset _ _ _ rfl
  refine ⟨_, _, hstep true, hstep false, ?_⟩
  simp [State.cycleFrom_withInputs, hregs, hout, hnext]

end Sys2Proof.Machine

/-! ## Proofs: what the encodings mean -/

namespace Sys2Proof.Machine

/-! ### Request messages -/

/-- Settles O3: `decodeReq` has no branch, and the halves it takes are the quotient and the remainder by `2 ^ 32`. -/
theorem requestIsMulOfItsHalves : Obligations.RequestIsMulOfItsHalves := by
  intro m
  exact ⟨reqA m, reqB m, rfl, reqA_toNat m, reqB_toNat m⟩

/-! ### The trailing-zero count of the calculator's input (R16) -/

theorem ctzFrom_le (fuel : Nat) (v : ShamtIn) : ctzFrom fuel v ≤ fuel := by
  induction fuel with
  | zero => exact Nat.le_refl 0
  | succ fuel ih =>
    rw [ctzFrom]
    split <;> omega

/-- The bits counted, from bit `8 - fuel` upwards, are zero. -/
theorem getLsbD_of_lt_ctzFrom {fuel : Nat} {v : ShamtIn} (hf : fuel ≤ 8) :
    ∀ i < ctzFrom fuel v, v.getLsbD (8 - fuel + i) = false := by
  induction fuel with
  | zero => intro i hi; exact absurd hi (Nat.not_lt_zero i)
  | succ fuel ih =>
    have hbit : 8 - (fuel + 1) = 7 - fuel := by omega
    intro i hi
    rw [ctzFrom] at hi
    split at hi
    · omega
    next hzero =>
      cases i with
      | zero => simpa [hbit] using hzero
      | succ i =>
        have hidx : 8 - (fuel + 1) + (i + 1) = 8 - fuel + i := by omega
        rw [hidx]
        exact ih (by omega) i (by omega)

/-- A count that ends before bit 8 ends at a set bit. -/
theorem getLsbD_ctzFrom {fuel : Nat} {v : ShamtIn} (hf : fuel ≤ 8) (hlt : ctzFrom fuel v < fuel) :
    v.getLsbD (8 - fuel + ctzFrom fuel v) = true := by
  induction fuel with
  | zero => omega
  | succ fuel ih =>
    have hbit : 8 - (fuel + 1) = 7 - fuel := by omega
    rw [ctzFrom] at hlt ⊢
    split at hlt
    next hone => rwa [if_pos hone, hbit]
    next hzero =>
      have hidx : 8 - (fuel + 1) + (1 + ctzFrom fuel v) = 8 - fuel + ctzFrom fuel v := by omega
      rw [if_neg hzero, hidx]
      exact ih (by omega) (by omega)

theorem ctz8_le (v : ShamtIn) : ctz8 v ≤ 8 := ctzFrom_le 8 v

theorem getLsbD_of_lt_ctz8 {v : ShamtIn} {i : Nat} (h : i < ctz8 v) : v.getLsbD i = false := by
  simpa using getLsbD_of_lt_ctzFrom (Nat.le_refl 8) i h

theorem ctz8_lt_of_ne_zero {v : ShamtIn} (h : v ≠ 0) : ctz8 v < 8 := by
  by_contra hge
  refine h (BitVec.eq_of_getLsbD_eq fun i hi => ?_)
  simpa using getLsbD_of_lt_ctz8 (v := v) (i := i) (by omega)

theorem getLsbD_ctz8 {v : ShamtIn} (h : v ≠ 0) : v.getLsbD (ctz8 v) = true := by
  simpa [ctz8] using getLsbD_ctzFrom (Nat.le_refl 8) (ctz8_lt_of_ne_zero h)

theorem ctz8_zero : ctz8 0 = 8 := by decide

/-! ### The shift-amount signal (R100, R78) -/

theorem shamtOf_toNat_of_odd {v : ShamtIn} (h : v.getLsbD 0 = true) : (shamtOf v).toNat = 1 := by
  rw [shamtOf, if_pos h]; rfl

/-- The count fits in the signal's four bits. -/
theorem shamtOf_toNat_of_even {v : ShamtIn} (h : v.getLsbD 0 = false) : (shamtOf v).toNat = ctz8 v := by
  have := ctz8_le v
  rw [shamtOf, h, if_neg Bool.false_ne_true, BitVec.toNat_ofNat]
  omega

/-- An even input has a trailing zero to count. -/
theorem ctz8_pos_of_even {v : ShamtIn} (h : v.getLsbD 0 = false) : 0 < ctz8 v := by
  rw [ctz8, ctzFrom, if_neg (by simpa using h)]
  omega

/-- The signal takes only the values 1 to 8 (R78). -/
theorem shamtOf_toNat_bounds (v : ShamtIn) : 1 ≤ (shamtOf v).toNat ∧ (shamtOf v).toNat ≤ 8 := by
  cases h : v.getLsbD 0 with
  | true => rw [shamtOf_toNat_of_odd h]; omega
  | false => rw [shamtOf_toNat_of_even h]; exact ⟨ctz8_pos_of_even h, ctz8_le v⟩

/-- Settles O8: an even input drives its trailing-zero count, which stops at the lowest set bit or at 8. -/
theorem shamtCountsTrailingZeros : Obligations.ShamtCountsTrailingZeros := by
  intro v
  refine ⟨shamtOf_toNat_of_odd, ?count, ?zero, shamtOf_toNat_bounds v⟩
  case count =>
    intro heven hne
    rw [shamtOf_toNat_of_even heven]
    exact ⟨getLsbD_ctz8 hne, fun _ => getLsbD_of_lt_ctz8⟩
  case zero =>
    rintro rfl
    rw [shamtOf_toNat_of_even rfl, ctz8_zero]

/-! ### The reserved code (R80) -/

theorem State.reservedCycle_of_not_reset {s : State} (h : s.nowInput.reset = false) :
    s.reservedCycle = .fault (.reservedState s.S) := by
  rw [State.reservedCycle, h, if_neg Bool.false_ne_true]

theorem exec_state3Reserved (x : BitVec 1) (s : State) : exec (.state3Reserved x) s = s.reservedCycle := rfl

/-- Settles O18: the operation is the reserved cycle, whose one branch is on reset. -/
theorem reservedStateFaults : Obligations.ReservedStateFaults := by
  intro x s hreset
  rw [exec_state3Reserved, State.reservedCycle_of_not_reset hreset]

end Sys2Proof.Machine

/-! ## Proofs: the shift-amount calculator's table, and what a shift discards -/

namespace Sys2Proof

/-! ### Masks of the truth table (R101) -/

/-- An input that meets a mask is known under every smaller mask: what rules out the rows before its own. -/
theorem ShamtIn.and_submask {v mask pattern : ShamtIn} (h : v &&& mask = pattern) (sub : ShamtIn)
    (hsub : mask &&& sub = sub) : v &&& sub = pattern &&& sub := by
  rw [← h, BitVec.and_assoc, hsub]

theorem ShamtIn.meets_iff (v mask pattern : ShamtIn) :
    ShamtIn.meets v mask pattern = true ↔ v &&& mask = pattern := by
  rw [ShamtIn.meets, beq_iff_eq]

end Sys2Proof

namespace Sys2Proof.Machine

/-! ### The truth table (R101) -/

/-- An input that meets a row's mask and match decodes to that row. -/
theorem decodeShamt_of_wellFormed {i : Instr} {v : ShamtIn} (henc : encode i = .shamtIn v)
    (hwf : i.WellFormed = true) : decodeShamt v = i := by
  cases i <;> cases henc <;> rw [Instr.WellFormed, ShamtIn.meets_iff] at hwf
  all_goals simp [decodeShamt, ShamtIn.and_submask hwf]

/-- An input that meets a row's mask and match has that row's operation and that row's value. -/
theorem shamtRow_of_masked {i : Instr} {v mask pattern : ShamtIn} {k : ShamtOut} (henc : encode i = .shamtIn v)
    (hrow : i.WellFormed = ShamtIn.meets v mask pattern) (hk : drivenShamt i = some k) (h : v &&& mask = pattern) :
    decode (.shamtIn v) = i ∧ shamtOf v = k := by
  have hwf : i.WellFormed = true := by rw [hrow, ShamtIn.meets_iff, h]
  have hdec : decodeShamt v = i := decodeShamt_of_wellFormed henc hwf
  have hval : some (shamtOf v) = some k := by rw [← drivenShamt_decodeShamt, hdec, hk]
  exact ⟨hdec, Option.some.inj hval⟩

/-- The masks and matches of the nine rows leave no input out. -/
theorem shamtRows_cover (v : ShamtIn) :
    v &&& 0x01 = 0x01 ∨ v &&& 0x03 = 0x02 ∨ v &&& 0x07 = 0x04 ∨ v &&& 0x0F = 0x08 ∨ v &&& 0x1F = 0x10 ∨
      v &&& 0x3F = 0x20 ∨ v &&& 0x7F = 0x40 ∨ v &&& 0xFF = 0x80 ∨ v &&& 0xFF = 0x00 := by
  revert v; decide

/-- Settles O5: an input that meets a row makes its row well formed, so that row is decoded, and it drives `shamtOf`. -/
theorem shamtRowsByMask : Obligations.ShamtRowsByMask := by
  intro v
  exact ⟨shamtRow_of_masked (i := .shamt1Lsb v) rfl rfl rfl,
    shamtRow_of_masked (i := .shamt1 v) rfl rfl rfl,
    shamtRow_of_masked (i := .shamt2 v) rfl rfl rfl,
    shamtRow_of_masked (i := .shamt3 v) rfl rfl rfl,
    shamtRow_of_masked (i := .shamt4 v) rfl rfl rfl,
    shamtRow_of_masked (i := .shamt5 v) rfl rfl rfl,
    shamtRow_of_masked (i := .shamt6 v) rfl rfl rfl,
    shamtRow_of_masked (i := .shamt7 v) rfl rfl rfl,
    shamtRow_of_masked (i := .shamt8 v) rfl rfl rfl,
    shamtRows_cover v⟩

/-! ### The calculator's input is the low byte of `B` -/

theorem shamtIn_getLsbD {b : Word} {i : Nat} (hi : i < 8) : (shamtIn b).getLsbD i = b.getLsbD i := by
  simp [shamtIn, hi]

theorem bLsb_eq_one_iff (b : Word) : bLsb b = 1 ↔ b.getLsbD 0 = true := by
  rw [← BitVec.toNat_inj, bLsb, BitVec.extractLsb'_toNat, BitVec.getLsbD, Nat.testBit_zero, decide_eq_true_iff]
  simp

/-! ### What a shift discards (R102) -/

/-- The bits below an even `B`'s shift amount are zeros. -/
theorem getLsbD_of_lt_shiftAmount {b : Word} (heven : b.getLsbD 0 = false) {i : Nat}
    (hi : i < (shiftAmount b).toNat) : b.getLsbD i = false := by
  have hlow : (shamtIn b).getLsbD 0 = false := by rw [shamtIn_getLsbD (by omega), heven]
  rw [shiftAmount, shamtOf_toNat_of_even hlow] at hi
  have hle := ctz8_le (shamtIn b)
  rw [← shamtIn_getLsbD (by omega)]
  exact getLsbD_of_lt_ctz8 hi

/-- A right shift splits off the bits it discards. -/
theorem toNat_eq_ushiftRight_mul_add (b : Word) (n : Nat) :
    b.toNat = (b >>> n).toNat * 2 ^ n + b.toNat % 2 ^ n := by
  rw [BitVec.toNat_ushiftRight, Nat.shiftRight_eq_div_pow, Nat.div_add_mod']

theorem toNat_mod_two_pow_of_low_zero {b : Word} {n : Nat} (h : ∀ i < n, b.getLsbD i = false) :
    b.toNat % 2 ^ n = 0 := by
  apply Nat.eq_of_testBit_eq
  intro i
  rw [Nat.testBit_mod_two_pow, Nat.zero_testBit]
  by_cases hi : i < n
  · rw [← BitVec.getLsbD, h i hi, Bool.and_false]
  · simp [hi]

/-- Settles O9: an even `B` loses only bits below its trailing-zero count, an odd `B` its low bit, and zero nothing. -/
theorem shiftDiscardsOnlyZeros : Obligations.ShiftDiscardsOnlyZeros := by
  intro b
  refine ⟨?even, ?odd, ?zero⟩
  case even =>
    intro heven _
    have hlow : ∀ i < (shiftAmount b).toNat, b.getLsbD i = false := fun _ => getLsbD_of_lt_shiftAmount heven
    refine ⟨(shamtOf_toNat_bounds (shamtIn b)).1, hlow, ?_⟩
    simpa only [toNat_mod_two_pow_of_low_zero hlow, Nat.add_zero] using
      toNat_eq_ushiftRight_mul_add b (shiftAmount b).toNat
  case odd =>
    intro hodd
    have hmod : b.toNat % 2 = 1 := by simpa [BitVec.getLsbD] using hodd
    have hsplit := toNat_eq_ushiftRight_mul_add b 1
    refine ⟨shiftAmount_odd b ((bLsb_eq_one_iff b).2 hodd), ?_⟩
    omega
  case zero =>
    rintro rfl
    decide

end Sys2Proof.Machine

/-! ## Proofs: the datapath, select by select -/

namespace Sys2Proof.Machine

/-! ### The encodings of the selects (R72 to R75) -/

theorem LoadSel.bit_eq_zero_iff (sel : LoadSel) : sel.bit = 0 ↔ sel = .load := by cases sel <;> decide

theorem LoadSel.bit_eq_one_iff (sel : LoadSel) : sel.bit = 1 ↔ sel = .shift := by cases sel <;> decide

theorem ResultSel.bit_eq_zero_iff (sel : ResultSel) : sel.bit = 0 ↔ sel = .add := by cases sel <;> decide

theorem ResultSel.bit_eq_one_iff (sel : ResultSel) : sel.bit = 1 ↔ sel = .zero := by cases sel <;> decide

theorem AddSel.bit_eq_zero_iff (sel : AddSel) : sel.bit = 0 ↔ sel = .add := by cases sel <;> decide

theorem AddSel.bit_eq_one_iff (sel : AddSel) : sel.bit = 1 ↔ sel = .result := by cases sel <;> decide

/-! ### The four muxes (R111, R112, R114, R115) -/

@[simp] theorem aMux_load (msg : ReqMsg) (shifted : Word) : aMux .load msg shifted = reqA msg := rfl

@[simp] theorem aMux_shift (msg : ReqMsg) (shifted : Word) : aMux .shift msg shifted = shifted := rfl

@[simp] theorem bMux_load (msg : ReqMsg) (shifted : Word) : bMux .load msg shifted = reqB msg := rfl

@[simp] theorem bMux_shift (msg : ReqMsg) (shifted : Word) : bMux .shift msg shifted = shifted := rfl

@[simp] theorem addMux_add (sum r : Word) : addMux .add sum r = sum := rfl

@[simp] theorem addMux_result (sum r : Word) : addMux .result sum r = r := rfl

@[simp] theorem resultMux_add (addOut : Word) : resultMux .add addOut = addOut := rfl

@[simp] theorem resultMux_zero (addOut : Word) : resultMux .zero addOut = 0 := rfl

/-! ### The next data registers (R119) -/

theorem datapathNext_a (d : DataRegs) (msg : ReqMsg) (c : Control) :
    (datapathNext d msg c).a = aMux c.aSel msg (aShifted d.a (shiftAmount d.b)) := rfl

theorem datapathNext_b (d : DataRegs) (msg : ReqMsg) (c : Control) :
    (datapathNext d msg c).b = bMux c.bSel msg (bShifted d.b (shiftAmount d.b)) := rfl

/-- The result register holds without its write enable (R117). -/
theorem datapathNext_r_of_disabled (d : DataRegs) (msg : ReqMsg) {c : Control} (h : c.resEn = false) :
    (datapathNext d msg c).r = d.r := by
  rw [datapathNext, h, if_neg Bool.false_ne_true]

/-- With its write enable the result register takes the result-mux output (R117). -/
theorem datapathNext_r_of_enabled (d : DataRegs) (msg : ReqMsg) {c : Control} (h : c.resEn = true) :
    (datapathNext d msg c).r = resultMux c.resSel (addMux c.addSel (adderSum d.a d.r) d.r) := by
  rw [datapathNext, if_pos h]

/-! ### The status signals (R29) -/

theorem bLsb_toNat (b : Word) : (bLsb b).toNat = b.toNat % 2 := by
  simp [bLsb]

theorem bZero_iff (b : Word) : bZero b = true ↔ b = 0 := by
  rw [bZero, beq_iff_eq]

/-- Settles O11: each select's bit names its constructor, and each mux has one equation per constructor. -/
theorem datapathFollowsTheSelects : Obligations.DatapathFollowsTheSelects := by
  intro d msg c
  simp only [LoadSel.bit_eq_zero_iff, LoadSel.bit_eq_one_iff, ResultSel.bit_eq_zero_iff, ResultSel.bit_eq_one_iff,
    AddSel.bit_eq_zero_iff, AddSel.bit_eq_one_iff]
  refine ⟨?aLoad, ?aShift, ?bLoad, ?bShift, datapathNext_r_of_disabled d msg, ?rZero, ?rSum, ?rSame,
    bLsb_toNat d.b, bZero_iff d.b⟩
  case aLoad => intro ha; rw [datapathNext_a, ha, aMux_load]
  case aShift => intro ha; rw [datapathNext_a, ha, aMux_shift]
  case bLoad => intro hb; rw [datapathNext_b, hb, bMux_load]
  case bShift => intro hb; rw [datapathNext_b, hb, bMux_shift]
  case rZero =>
    intro hen hres
    rw [datapathNext_r_of_enabled d msg hen, hres, resultMux_zero]
  case rSum =>
    intro hen hres hadd
    rw [datapathNext_r_of_enabled d msg hen, hres, hadd, resultMux_add, addMux_add]
  case rSame =>
    intro hen hres hadd
    rw [datapathNext_r_of_enabled d msg hen, hres, hadd, resultMux_add, addMux_result]

end Sys2Proof.Machine

/-! ## Proofs: the control FSM, row by row -/

namespace Sys2Proof.Machine

/-! ### Reset dominates (R130) -/

/-- A reset cycle ends in IDLE with both records of transfers empty, whichever state it runs in. -/
theorem State.cycleFrom_of_reset (q : FsmState) {s : State} (h : s.nowInput.reset = true) :
    (s.cycleFrom q).S = FsmState.IDLE.code ∧ (s.cycleFrom q).accepted = [] ∧ (s.cycleFrom q).delivered = [] := by
  refine ⟨?code, ?accepted, ?delivered⟩
  case code => rw [State.cycleFrom, State.commit_S, unitStep_next_of_reset _ _ _ h]
  case accepted => rw [State.cycleFrom, State.commit_accepted, State.setShamt_nowInput, if_pos h]
  case delivered => rw [State.cycleFrom, State.commit_delivered, State.setShamt_nowInput, if_pos h]

/-- Settles O23: a clocked step from one of the three states is that state's `Step`, and a reset cycle of `Step` ends in
IDLE with nothing recorded. -/
theorem resetDominates : Obligations.ResetDominates := by
  intro s hlegal hclocked hreset
  obtain ⟨q, hq⟩ := hlegal.exists_state
  exact ⟨s.cycleFrom q, step_of_clocked_of_code hclocked hq, State.cycleFrom_of_reset q hreset⟩

/-! ### The transition table (R134) -/

theorem fsmNext_of_reset (q : FsmState) (e z r : Bool) : fsmNext q true e z r = .IDLE := rfl

theorem fsmNext_IDLE (e z r : Bool) : fsmNext .IDLE false e z r = if e then .CALC else .IDLE := rfl

theorem fsmNext_CALC (e z r : Bool) : fsmNext .CALC false e z r = if z then .DONE else .CALC := rfl

theorem fsmNext_DONE (e z r : Bool) : fsmNext .DONE false e z r = if r then .IDLE else .DONE := rfl

/-- Settles O12: without reset each state's row reads one input, and with reset none is read. -/
theorem transitionTable : Obligations.TransitionTable := by
  intro q e z r
  exact ⟨fsmNext_of_reset q e z r, fsmNext_IDLE false z r, fsmNext_IDLE true z r, fsmNext_CALC e false r,
    fsmNext_CALC e true r, fsmNext_DONE e z false, fsmNext_DONE e z true⟩

/-! ### The control word of each state (R77, R143) -/

/-- In IDLE every bit of the control word but the last is fixed; the last is the draw. -/
theorem fsmOutputs_IDLE_word (lsb : BitVec 1) (r : Bool) (d : Draws) :
    (fsmOutputs .IDLE lsb r d).word = (0b100011 : BitVec 6) ++ d.dAdd.bit := by
  have hhead : BitVec.ofBool true ++ BitVec.ofBool false ++ LoadSel.load.bit ++ LoadSel.load.bit ++
      ResultSel.zero.bit ++ BitVec.ofBool true = (0b100011 : BitVec 6) := by decide
  exact congrArg (· ++ d.dAdd.bit) hhead

/-- In CALC the control word is fixed but for its last bit, which is the complement of `b_lsb`. -/
theorem fsmOutputs_CALC_word (lsb : BitVec 1) (r : Bool) (d : Draws) :
    (fsmOutputs .CALC lsb r d).word = (0b001101 : BitVec 6) ++ ~~~lsb := by
  have hhead : BitVec.ofBool false ++ BitVec.ofBool false ++ LoadSel.shift.bit ++ LoadSel.shift.bit ++
      ResultSel.add.bit ++ BitVec.ofBool true = (0b001101 : BitVec 6) := by decide
  have hbit : (if lsb = 1 then AddSel.add else AddSel.result).bit = ~~~lsb := by
    revert lsb; decide
  exact congrArg₂ (· ++ ·) hhead hbit

/-- Settles O13: the words of IDLE and CALC are a fixed head and one bit; in DONE every signal is read off. -/
theorem outputTable : Obligations.OutputTable := by
  intro lsb r d
  refine ⟨?idle, rfl, fsmOutputs_CALC_word 1 r d, fsmOutputs_CALC_word 0 r d, rfl, rfl, rfl, rfl, rfl, rfl, rfl⟩
  case idle => rw [fsmOutputs_IDLE_word, BitVec.extractLsb'_append_eq_left]

/-! ### The end of a cycle -/

/-- Whichever control row ends the cycle, the rest of the record moves on as R12 and R116 say. -/
theorem State.endCycle_frame (s : State) (rdy en : Bool) (q : FsmState) (a b r : Word) :
    CycleFrame s (s.endCycle rdy en q a b r) where
  mulQueue := rfl
  shamt := rfl
  inputs := rfl
  drawStream := rfl
  drawIdx := rfl

theorem afterReset_code (reset : Bool) (q : FsmState) :
    (afterReset reset q).code = if reset then FsmState.IDLE.code else q.code := by
  rw [afterReset, apply_ite FsmState.code]

/-- A row that does not drive `req_rdy` takes no request. -/
theorem State.endCycle_accepted_of_not_ready (s : State) (en : Bool) (q : FsmState) (a b r : Word) :
    (s.endCycle false en q a b r).accepted = if s.nowInput.reset then [] else s.accepted := by
  rw [State.endCycle_accepted, Bool.and_false, if_neg Bool.false_ne_true]

/-- A row that does not drive `resp_en` gives no response. -/
theorem State.endCycle_delivered_of_not_enabled (s : State) (rdy : Bool) (q : FsmState) (a b r : Word) :
    (s.endCycle rdy false q a b r).delivered = if s.nowInput.reset then [] else s.delivered := by
  rw [State.endCycle_delivered, Bool.false_and, if_neg Bool.false_ne_true]

/-- The outputs of a cycle that drives no handshake (R141). -/
theorem outputsOf_silent (v : Input) (r : Word) : outputsOf v false false r =
    { reqRdy := false, respEn := false, respMsg := r, reqFire := false, respFire := false } := by
  rw [outputsOf, Bool.and_false, Bool.false_and]

/-! ### Shifts as integers (R110) -/

theorem aShifted_toNat (a : Word) (k : ShamtOut) : (aShifted a k).toNat = a.toNat * 2 ^ k.toNat % 2 ^ 32 := by
  rw [aShifted, BitVec.toNat_shiftLeft, Nat.shiftLeft_eq]

theorem bShifted_toNat (b : Word) (k : ShamtOut) : (bShifted b k).toNat = b.toNat / 2 ^ k.toNat := by
  rw [bShifted, BitVec.toNat_ushiftRight, Nat.shiftRight_eq_div_pow]

/-! ### The muxes of a drawn select -/

theorem aMux_ofBit (x : BitVec 1) (msg : ReqMsg) (shifted : Word) :
    aMux (LoadSel.ofBit x) msg shifted = if x = 0 then reqA msg else shifted := by
  rw [LoadSel.ofBit]
  split <;> rfl

theorem bMux_ofBit (x : BitVec 1) (msg : ReqMsg) (shifted : Word) :
    bMux (LoadSel.ofBit x) msg shifted = if x = 0 then reqB msg else shifted := by
  rw [LoadSel.ofBit]
  split <;> rfl

/-! ### The four operations of one cycle -/

theorem exec_idleLoad (x : BitVec 1) (s : State) : exec (.idleLoad x) s =
    .next (s.endCycle true false (afterReset s.nowInput.reset (if s.nowInput.reqEn then .CALC else .IDLE))
      (reqA s.nowInput.reqMsg) (reqB s.nowInput.reqMsg) 0) := rfl

theorem exec_calcShiftAdd (s : State) : exec .calcShiftAdd s =
    .next (s.endCycle false false (afterReset s.nowInput.reset .CALC) (s.A <<< 1) (s.B >>> 1) (s.A + s.R)) := rfl

theorem exec_calcShift (s : State) : exec .calcShift s =
    .next (s.endCycle false false (afterReset s.nowInput.reset (if s.B = 0 then .DONE else .CALC))
      (s.A <<< (shiftAmount s.B).toNat) (s.B >>> (shiftAmount s.B).toNat) s.R) := rfl

theorem exec_doneHold (x : BitVec 1) (s : State) : exec (.doneHold x) s =
    .next (s.endCycle false s.nowInput.respRdy
      (afterReset s.nowInput.reset (if s.nowInput.respRdy then .IDLE else .DONE))
      (aMux (LoadSel.ofBit (Config.drawASel s.drawStream s.drawIdx)) s.nowInput.reqMsg
        (aShifted s.A (shiftAmount s.B)))
      (bMux (LoadSel.ofBit (Config.drawBSel s.drawStream s.drawIdx)) s.nowInput.reqMsg
        (bShifted s.B (shiftAmount s.B))) s.R) := rfl

/-- Settles O14: the operation ends the cycle with `req_rdy` driven, so the request transfers exactly when `req_en` is. -/
theorem idleLoadResult : Obligations.IdleLoadResult := by
  intro x s
  refine ⟨_, exec_idleLoad x s, reqA_toNat _, reqB_toNat _, rfl, ?code, ?out, ?accepted,
    s.endCycle_delivered_of_not_enabled .., s.endCycle_frame ..⟩
  case code => rw [State.endCycle_S, afterReset_code, apply_ite FsmState.code]
  case out => rw [State.endCycle_out, outputsOf, Bool.and_true, Bool.false_and]
  case accepted => rw [State.endCycle_accepted, Bool.and_true]

/-- Settles O15: the operation drives no handshake, adds, and shifts by one, as `Shamt = 1` does. -/
theorem calcShiftAddResult : Obligations.CalcShiftAddResult := by
  intro s
  exact ⟨_, exec_calcShiftAdd s, BitVec.toNat_add s.A s.R, aShifted_toNat s.A 1, bShifted_toNat s.B 1,
    afterReset_code .., outputsOf_silent .., s.endCycle_accepted_of_not_ready ..,
    s.endCycle_delivered_of_not_enabled .., s.endCycle_frame ..⟩

/-- Settles O16: the operation drives no handshake, shifts by `Shamt`, and leaves CALC only on `B = 0`. -/
theorem calcShiftResult : Obligations.CalcShiftResult := by
  intro s
  refine ⟨_, exec_calcShift s, rfl, aShifted_toNat .., bShifted_toNat .., ?code, outputsOf_silent ..,
    s.endCycle_accepted_of_not_ready .., s.endCycle_delivered_of_not_enabled .., s.endCycle_frame ..⟩
  case code => rw [State.endCycle_S, afterReset_code, apply_ite FsmState.code]

/-- Settles O17: the operation drives `resp_en` as the consumer drives `resp_rdy`, so the response transfers exactly
when the consumer is ready; `A` and `B` are what the muxes give for the drawn selects. -/
theorem doneHoldResult : Obligations.DoneHoldResult := by
  intro x s
  refine ⟨_, exec_doneHold x s, rfl, aMux_ofBit .., bMux_ofBit .., ?code, ?out, s.endCycle_accepted_of_not_ready ..,
    ?delivered, s.endCycle_frame ..⟩
  case code => rw [State.endCycle_S, afterReset_code, apply_ite FsmState.code]
  case out => rw [State.endCycle_out, outputsOf, Bool.and_false, Bool.and_self]
  case delivered => rw [State.endCycle_delivered, Bool.and_self]

end Sys2Proof.Machine

/-! ## Proofs: `Step` and the transition table (R160) -/

namespace Sys2Proof.Machine

/-- The next state `Step` reads off the cycle's transfers is the transition table's: in IDLE `req_rdy` is driven, and in
DONE `resp_en` follows `resp_rdy`. -/
theorem unitStep_next (q : FsmState) (d : DataRegs) (v : Input) (w : Draws) :
    (unitStep q d v w).next = fsmNext q v.reset v.reqEn (bZero d.b) v.respRdy := by
  cases q with
  | IDLE =>
    have hfire : (v.reqEn && true) = v.reqEn := Bool.and_true _
    simp only [unitStep, fsmOutputs, fsmNext, outputsOf_reqFire, hfire]
  | CALC => rfl
  | DONE =>
    have hfire : (v.respRdy && v.respRdy) = v.respRdy := Bool.and_self _
    simp only [unitStep, fsmOutputs, fsmNext, outputsOf_respFire, hfire]

/-- Settles O22: a clocked step from one of the three states commits what `Step` gives, and `Step`'s next state is the
transition table's. -/
theorem stepIsTheSpecsStep : Obligations.StepIsTheSpecsStep := by
  intro q s hq hclocked
  exact ⟨s.cycleFrom q, step_of_clocked_of_code hclocked hq, rfl, rfl, rfl, rfl, rfl, unitStep_next .., rfl, rfl, rfl,
    rfl⟩

end Sys2Proof.Machine

/-! ## Proofs: the count of shifts (R164) and the loop invariant (R162) -/

namespace Sys2Proof.Machine

/-! ### The step count -/

theorem stepsWithin_zero (fuel : Nat) : stepsWithin fuel 0 = 0 := by
  cases fuel with
  | zero => rfl
  | succ fuel => rw [stepsWithin, if_pos rfl]

theorem stepsWithin_succ {b : Word} (h : b ≠ 0) (fuel : Nat) :
    stepsWithin (fuel + 1) b = 1 + stepsWithin fuel (b >>> (shiftAmount b).toNat) := by
  rw [stepsWithin, if_neg h]

theorem stepsWithin_le (fuel : Nat) (b : Word) : stepsWithin fuel b ≤ fuel := by
  induction fuel generalizing b with
  | zero => exact Nat.le_refl 0
  | succ fuel ih =>
    by_cases hb : b = 0
    · rw [hb, stepsWithin_zero]
      omega
    · have := ih (b >>> (shiftAmount b).toNat)
      rw [stepsWithin_succ hb]
      omega

/-- A shift takes away at least one bit (R163). -/
theorem ushiftRight_shiftAmount_lt {b : Word} {n : Nat} (h : b.toNat < 2 ^ (n + 1)) :
    (b >>> (shiftAmount b).toNat).toNat < 2 ^ n := by
  have hpos : 1 ≤ (shiftAmount b).toNat := (shamtOf_toNat_bounds (shamtIn b)).1
  rw [BitVec.toNat_ushiftRight, Nat.shiftRight_eq_div_pow]
  calc b.toNat / 2 ^ (shiftAmount b).toNat
      ≤ b.toNat / 2 ^ 1 := Nat.div_le_div_left (Nat.pow_le_pow_right (by omega) hpos) (by omega)
    _ < 2 ^ n := by omega

/-- As many shifts as the word has bits are enough: one more changes nothing. -/
theorem stepsWithin_succ_of_lt {fuel : Nat} {b : Word} (h : b.toNat < 2 ^ fuel) :
    stepsWithin (fuel + 1) b = stepsWithin fuel b := by
  induction fuel generalizing b with
  | zero =>
    have hb : b = 0 := BitVec.eq_of_toNat_eq (by simpa using h)
    rw [hb, stepsWithin_zero, stepsWithin_zero]
  | succ fuel ih =>
    by_cases hb : b = 0
    · rw [hb, stepsWithin_zero, stepsWithin_zero]
    · rw [stepsWithin_succ hb, stepsWithin_succ hb, ih (ushiftRight_shiftAmount_lt h)]

theorem steps_zero : steps 0 = 0 := stepsWithin_zero 32

theorem steps_of_ne_zero {b : Word} (h : b ≠ 0) : steps b = 1 + steps (b >>> (shiftAmount b).toNat) := by
  rw [steps, stepsWithin_succ h, steps, stepsWithin_succ_of_lt (ushiftRight_shiftAmount_lt b.isLt)]

theorem steps_le (b : Word) : steps b ≤ 32 := stepsWithin_le 32 b

theorem steps_eq_zero_iff (b : Word) : steps b = 0 ↔ b = 0 := by
  constructor
  · intro h
    by_contra hb
    have := steps_of_ne_zero hb
    omega
  · rintro rfl
    exact steps_zero

/-! ### The loop invariant -/

/-- Shifting one factor left is shifting the other. -/
theorem shiftLeft_mul (a c : Word) (n : Nat) : (a <<< n) * c = a * (c <<< n) := by
  rw [BitVec.shiftLeft_eq_mul_twoPow, BitVec.shiftLeft_eq_mul_twoPow]
  ring

/-- An even `B` is given back by shifting it left again (R102). -/
theorem ushiftRight_shiftLeft_of_even {b : Word} (h : bLsb b = 0) :
    (b >>> (shiftAmount b).toNat) <<< (shiftAmount b).toNat = b := by
  have hbit : b.getLsbD 0 = false := by
    have hne : ¬ bLsb b = 1 := by rw [h]; decide
    rwa [bLsb_eq_one_iff, Bool.not_eq_true] at hne
  have hlow := toNat_mod_two_pow_of_low_zero fun _ => getLsbD_of_lt_shiftAmount hbit
  have hsplit := toNat_eq_ushiftRight_mul_add b (shiftAmount b).toNat
  rw [hlow, Nat.add_zero] at hsplit
  apply BitVec.eq_of_toNat_eq
  rw [BitVec.toNat_shiftLeft, Nat.shiftLeft_eq, ← hsplit, Nat.mod_eq_of_lt b.isLt]

/-- An odd `B` loses its low bit (R102). -/
theorem ushiftRight_shiftLeft_of_odd {b : Word} (h : bLsb b = 1) : (b >>> 1) <<< 1 + 1 = b := by
  have hone : (1 : Word).toNat = 1 := rfl
  have hodd : b.toNat % 2 = 1 := by rw [← bLsb_toNat, h]; rfl
  have hsplit := toNat_eq_ushiftRight_mul_add b 1
  have hlt := b.isLt
  apply BitVec.eq_of_toNat_eq
  rw [BitVec.toNat_add, BitVec.toNat_shiftLeft, Nat.shiftLeft_eq, hone]
  omega

/-- One CALC cycle's shift and accumulate keep `R + A * B` modulo `2 ^ 32` (R162). -/
theorem shiftAndAdd_keeps_loop (a b r : Word) :
    (if bLsb b = 1 then adderSum a r else r) + aShifted a (shiftAmount b) * bShifted b (shiftAmount b) =
      r + a * b := by
  rw [aShifted, bShifted, shiftLeft_mul]
  rcases bLsb_cases b with heven | hodd
  · rw [if_neg (by rw [heven]; decide), ushiftRight_shiftLeft_of_even heven]
  · have hk : (shiftAmount b).toNat = 1 := by rw [shiftAmount_odd b hodd]; rfl
    rw [if_pos hodd, hk, adderSum]
    calc a + r + a * ((b >>> 1) <<< 1) = r + a * ((b >>> 1) <<< 1 + 1) := by ring
      _ = r + a * b := by rw [ushiftRight_shiftLeft_of_odd hodd]

end Sys2Proof.Machine

/-! ## Proofs: the phases of a multiplication, cycle by cycle -/

namespace Sys2Proof.Machine

/-! ### The unit between a request and its response -/

/-- In CALC, owing the response `p`, with `n` shifts to go (R162, R164). -/
structure State.Calculating (s : State) (p : Word) (n : Nat) : Prop where
  code : s.S = FsmState.CALC.code
  loop : s.R + s.A * s.B = p
  left : steps s.B = n

/-- In DONE, presenting the response `p` (R165). -/
structure State.Holding (s : State) (p : Word) : Prop where
  code : s.S = FsmState.DONE.code
  result : s.R = p

/-- Between `s` and `t` nothing transfers, and the same requests wait. -/
structure NoTransfer (s t : State) : Prop where
  accepted : t.accepted = s.accepted
  delivered : t.delivered = s.delivered
  mulQueue : t.mulQueue = s.mulQueue

/-- The cycle that leads to `t` takes the request `m`, the first transfer since `s` (R150). -/
structure RequestTransferred (m : ReqMsg) (s t : State) : Prop where
  code : t.S = FsmState.CALC.code
  A : t.A = reqA m
  B : t.B = reqB m
  R : t.R = 0
  reqRdy : t.out.reqRdy = true
  reqFire : t.out.reqFire = true
  accepted : t.accepted = m :: s.accepted
  delivered : t.delivered = s.delivered
  mulQueue : t.mulQueue = s.mulQueue

/-- The cycle that leads to `t` gives the response `p`, the first transfer since `s` (R153). -/
structure ResponseTransferred (p : Word) (s t : State) : Prop where
  code : t.S = FsmState.IDLE.code
  R : t.R = p
  out : t.out = { reqRdy := false, respEn := true, respMsg := p, reqFire := false, respFire := true }
  accepted : t.accepted = s.accepted
  delivered : t.delivered = p :: s.delivered
  mulQueue : t.mulQueue = s.mulQueue

theorem NoTransfer.refl (s : State) : NoTransfer s s := ⟨rfl, rfl, rfl⟩

theorem NoTransfer.trans {s t u : State} (h : NoTransfer s t) (h' : NoTransfer t u) : NoTransfer s u where
  accepted := h'.accepted.trans h.accepted
  delivered := h'.delivered.trans h.delivered
  mulQueue := h'.mulQueue.trans h.mulQueue

/-- Driving the ports of a cycle transfers nothing by itself. -/
theorem NoTransfer.drivenBy (s : State) (v : Input) : NoTransfer s (s.drivenBy v) := ⟨rfl, rfl, rfl⟩

theorem NoTransfer.requestTransferred {s t u : State} {m : ReqMsg} (h : NoTransfer s t)
    (h' : RequestTransferred m t u) : RequestTransferred m s u :=
  { h' with
    accepted := by rw [h'.accepted, h.accepted]
    delivered := h'.delivered.trans h.delivered
    mulQueue := h'.mulQueue.trans h.mulQueue }

theorem NoTransfer.responseTransferred {s t u : State} {p : Word} (h : NoTransfer s t)
    (h' : ResponseTransferred p t u) : ResponseTransferred p s u :=
  { h' with
    accepted := h'.accepted.trans h.accepted
    delivered := by rw [h'.delivered, h.delivered]
    mulQueue := h'.mulQueue.trans h.mulQueue }

/-- The response owed to a request is what the first CALC cycle finds in `R + A * B` (R161, R162). -/
theorem RequestTransferred.calculating {m : ReqMsg} {s t : State} (h : RequestTransferred m s t) :
    t.Calculating (product m) (steps (reqB m)) where
  code := h.code
  loop := by rw [h.A, h.B, h.R, zero_add, product]
  left := by rw [h.B]

@[simp] theorem product_packReq (a b : Word) : product (packReq a b) = a * b := by
  rw [product, reqA_packReq, reqB_packReq]

/-- The last CALC cycle is the one that finds `B = 0` (R164). -/
theorem State.Calculating.B_eq_zero_iff {s : State} {p : Word} {n : Nat} (h : s.Calculating p n) :
    s.B = 0 ↔ n = 0 := by
  rw [← steps_eq_zero_iff, h.left]

/-! ### One cycle of each phase -/

theorem State.cycleFrom_inputs (q : FsmState) (s : State) : (s.cycleFrom q).inputs = s.inputs.tail := rfl

/-- An IDLE cycle in which a request is presented takes it. -/
theorem State.cycleFrom_IDLE_transfers {s : State} (hreset : s.nowInput.reset = false)
    (hreq : s.nowInput.reqEn = true) : RequestTransferred s.nowInput.reqMsg s (s.cycleFrom .IDLE) := by
  rw [State.cycleFrom_IDLE]
  constructor <;> simp [hreset, hreq]

/-- A CALC cycle drives no handshake (R141). -/
theorem State.cycleFrom_CALC_out (s : State) : (s.cycleFrom .CALC).out =
    { reqRdy := false, respEn := false, respMsg := s.R, reqFire := false, respFire := false } := by
  rw [State.cycleFrom_CALC, State.endCycle_out, outputsOf_silent, State.setShamt_R]

theorem State.cycleFrom_CALC_noTransfer {s : State} (hreset : s.nowInput.reset = false) :
    NoTransfer s (s.cycleFrom .CALC) := by
  rw [State.cycleFrom_CALC]
  constructor <;> simp [hreset]

theorem State.cycleFrom_CALC_loop (s : State) :
    (s.cycleFrom .CALC).R + (s.cycleFrom .CALC).A * (s.cycleFrom .CALC).B = s.R + s.A * s.B := by
  rw [State.cycleFrom_CALC]
  exact shiftAndAdd_keeps_loop s.A s.B s.R

/-- A CALC cycle with shifts to go does one of them. -/
theorem State.Calculating.cycle {s : State} {p : Word} {n : Nat} (h : s.Calculating p (n + 1))
    (hreset : s.nowInput.reset = false) : (s.cycleFrom .CALC).Calculating p n := by
  have hB : s.B ≠ 0 := by rw [Ne, h.B_eq_zero_iff]; omega
  have hleft := h.left
  rw [steps_of_ne_zero hB] at hleft
  refine ⟨?code, s.cycleFrom_CALC_loop.trans h.loop, ?left⟩
  case code => rw [State.cycleFrom_CALC, State.endCycle_S, hreset, afterReset_false, if_neg hB]
  case left =>
    rw [State.cycleFrom_CALC, State.endCycle_B, bShifted]
    omega

/-- A CALC cycle with no shift to go leaves the product in `R` and ends in DONE (R162). -/
theorem State.Calculating.cycle_last {s : State} {p : Word} (h : s.Calculating p 0)
    (hreset : s.nowInput.reset = false) : (s.cycleFrom .CALC).Holding p := by
  have hB : s.B = 0 := h.B_eq_zero_iff.2 rfl
  have heven : ¬ bLsb s.B = 1 := by rw [hB]; decide
  have hR : s.R = p := by rw [← h.loop, hB, mul_zero, add_zero]
  refine ⟨?code, ?result⟩
  case code => rw [State.cycleFrom_CALC, State.endCycle_S, hreset, afterReset_false, if_pos hB]
  case result => rw [State.cycleFrom_CALC, State.endCycle_R, if_neg heven, hR]

theorem State.cycleFrom_DONE_R (s : State) : (s.cycleFrom .DONE).R = s.R := by
  rw [State.cycleFrom_DONE, State.endCycle_R]

theorem State.cycleFrom_DONE_out (s : State) : (s.cycleFrom .DONE).out =
    { reqRdy := false, respEn := s.nowInput.respRdy, respMsg := s.R, reqFire := false
      respFire := s.nowInput.respRdy } := by
  rw [State.cycleFrom_DONE, State.endCycle_out, State.setShamt_nowInput, State.setShamt_R, outputsOf,
    Bool.and_false, Bool.and_self]

/-- A DONE cycle with no ready consumer holds the response (R165). -/
theorem State.Holding.cycle_stalled {s : State} {p : Word} (h : s.Holding p) (hreset : s.nowInput.reset = false)
    (hrdy : s.nowInput.respRdy = false) : (s.cycleFrom .DONE).Holding p := by
  refine ⟨?code, s.cycleFrom_DONE_R.trans h.result⟩
  case code =>
    rw [State.cycleFrom_DONE, State.endCycle_S, hreset, hrdy, afterReset_false, if_neg Bool.false_ne_true]

theorem State.cycleFrom_DONE_noTransfer {s : State} (hreset : s.nowInput.reset = false)
    (hrdy : s.nowInput.respRdy = false) : NoTransfer s (s.cycleFrom .DONE) := by
  rw [State.cycleFrom_DONE]
  constructor <;> simp [hreset, hrdy]

/-- A DONE cycle with a ready consumer gives the response. -/
theorem State.Holding.cycle_taken {s : State} {p : Word} (h : s.Holding p) (hreset : s.nowInput.reset = false)
    (hrdy : s.nowInput.respRdy = true) : ResponseTransferred p s (s.cycleFrom .DONE) := by
  have hR := h.result
  refine ⟨?code, s.cycleFrom_DONE_R.trans hR, ?out, ?accepted, ?delivered, rfl⟩
  case out => rw [State.cycleFrom_DONE_out, hrdy, hR]
  all_goals rw [State.cycleFrom_DONE]; simp [hreset, hrdy, hR]

end Sys2Proof.Machine

/-! ## Proofs: runs of clock cycles -/

namespace Sys2Proof.Machine

/-! ### What the surroundings list for the coming cycles -/

/-- Every input vector listed for the coming `n` cycles meets `P`. -/
def State.ListedMeet (s : State) (n : Nat) (P : Input → Prop) : Prop := ∀ k v, k < n → s.inputs[k]? = some v → P v

/-- What the listed vectors and an undriven cycle's ports meet, the current ports meet. -/
theorem State.ListedMeet.nowInput {s : State} {n : Nat} {P : Input → Prop} (h : s.ListedMeet (n + 1) P)
    (hfree : P (Input.undriven s.drawStream s.drawIdx)) : P s.nowInput := by
  cases hin : s.inputs with
  | nil => rwa [s.nowInput_of_nil hin]
  | cons v rest =>
    rw [s.nowInput_of_cons v rest hin]
    exact h 0 v (by omega) (by rw [hin]; rfl)

/-- What is listed for later cycles is listed once those cycles come. -/
theorem State.ListedMeet.later {s t : State} {j n : Nat} {P : Input → Prop} (h : s.ListedMeet (j + n) P)
    (ht : t.inputs = s.inputs.drop j) : t.ListedMeet n P := by
  intro k v hk hv
  rw [ht, List.getElem?_drop] at hv
  exact h (j + k) v (by omega) hv

theorem State.ListedMeet.mono {s : State} {m n : Nat} {P : Input → Prop} (h : s.ListedMeet n P) (hmn : m ≤ n) :
    s.ListedMeet m P := fun k v hk => h k v (by omega)

theorem State.NoResetFor.listedMeet {s : State} {n : Nat} (h : s.NoResetFor n) : s.ListedMeet n (·.reset = false) := h

theorem State.NoResetFor.nowInput {s : State} {n : Nat} (h : s.NoResetFor (n + 1)) : s.nowInput.reset = false :=
  h.listedMeet.nowInput rfl

theorem State.NoResetFor.later {s t : State} {j n : Nat} (h : s.NoResetFor (j + n))
    (ht : t.inputs = s.inputs.drop j) : t.NoResetFor n :=
  h.listedMeet.later ht

/-- The vector listed for the current cycle drives its ports. -/
theorem State.nowInput_of_getElem?_zero {s : State} {v : Input} (h : s.inputs[0]? = some v) : s.nowInput = v := by
  obtain ⟨rest, hin⟩ : ∃ rest, s.inputs = v :: rest := by
    cases hin : s.inputs with
    | nil => rw [hin] at h; cases h
    | cons w rest => rw [hin] at h; cases h; exact ⟨rest, rfl⟩
  exact s.nowInput_of_cons v rest hin

/-! ### Runs -/

theorem runSteps_succ_of_step {s t : State} (h : step s = .next t) (n : Nat) : runSteps (n + 1) s = runSteps n t := by
  rw [runSteps, h, Result.andThen_next]

/-- A run of `j + k` steps whose first `j` answer is a run of `k` steps from there. -/
theorem runSteps_add {s t : State} {j : Nat} (h : runSteps j s = .next t) (k : Nat) :
    runSteps (j + k) s = runSteps k t := by
  induction j generalizing s with
  | zero => cases h; rw [Nat.zero_add]
  | succ j ih =>
    obtain ⟨m, hm, hrun⟩ := Result.andThen_eq_next h
    rw [Nat.add_right_comm, runSteps_succ_of_step hm, ih hrun]

theorem runSteps_one (s : State) : runSteps 1 s = step s := by
  rw [runSteps]
  cases step s <;> rfl

/-- A run of clock cycles uses up one listed vector in each and starts no whole MUL. -/
theorem runSteps_frame {s t : State} {n : Nat} (hc : s.Clocked) (h : runSteps n s = .next t) :
    t.Clocked ∧ t.inputs = s.inputs.drop n := by
  induction n generalizing s with
  | zero => cases h; exact ⟨hc, rfl⟩
  | succ n ih =>
    obtain ⟨m, hm, hrun⟩ := Result.andThen_eq_next h
    rw [step_of_clocked hc] at hm
    obtain ⟨-, hqueue, hinputs, -⟩ := State.tick_frame hm
    obtain ⟨hct, hdrop⟩ := ih (hqueue.trans hc) hrun
    exact ⟨hct, by rw [hdrop, hinputs, List.drop_tail]⟩

/-- A run of clock cycles goes on with the cycle of the state it has reached. -/
theorem runSteps_succ_of_code {s t : State} {n : Nat} {q : FsmState} (hc : s.Clocked) (h : runSteps n s = .next t)
    (hq : t.S = q.code) : runSteps (n + 1) s = .next (t.cycleFrom q) := by
  obtain ⟨hct, -⟩ := runSteps_frame hc h
  rw [runSteps_add h 1, runSteps_one, step_of_clocked_of_code hct hq]

/-- `k` CALC cycles do `k` of the shifts to go, and nothing transfers. -/
theorem runSteps_of_calculating {p : Word} {n k : Nat} {s : State} (hc : s.Clocked) (h : s.Calculating p (n + k))
    (hr : s.NoResetFor k) : ∃ t, runSteps k s = .next t ∧ t.Calculating p n ∧ NoTransfer s t := by
  induction k generalizing s with
  | zero => exact ⟨s, rfl, h, .refl s⟩
  | succ k ih =>
    have hnow : s.nowInput.reset = false := hr.nowInput
    have hlater : (s.cycleFrom .CALC).NoResetFor k := by
      rw [Nat.add_comm] at hr
      exact hr.later List.drop_one.symm
    obtain ⟨t, hrun, hcalc, hquiet⟩ := ih (s := s.cycleFrom .CALC) hc (h.cycle hnow) hlater
    rw [runSteps_succ_of_step (step_of_clocked_of_code hc h.code)]
    exact ⟨t, hrun, hcalc, (State.cycleFrom_CALC_noTransfer hnow).trans hquiet⟩

/-- `w` DONE cycles with no ready consumer hold the response (R165). -/
theorem runSteps_of_holding {p : Word} {w : Nat} {s : State} (hc : s.Clocked) (h : s.Holding p)
    (hstall : s.ListedMeet w fun v => v.reset = false ∧ v.respRdy = false) :
    ∃ t, runSteps w s = .next t ∧ t.Holding p ∧ NoTransfer s t := by
  induction w generalizing s with
  | zero => exact ⟨s, rfl, h, .refl s⟩
  | succ w ih =>
    obtain ⟨hreset, hrdy⟩ := hstall.nowInput ⟨rfl, rfl⟩
    have hlater : (s.cycleFrom .DONE).ListedMeet w fun v => v.reset = false ∧ v.respRdy = false := by
      rw [Nat.add_comm] at hstall
      exact hstall.later List.drop_one.symm
    obtain ⟨t, hrun, hhold, hquiet⟩ := ih (s := s.cycleFrom .DONE) hc (h.cycle_stalled hreset hrdy) hlater
    rw [runSteps_succ_of_step (step_of_clocked_of_code hc h.code)]
    exact ⟨t, hrun, hhold, (State.cycleFrom_DONE_noTransfer hreset hrdy).trans hquiet⟩

end Sys2Proof.Machine

/-! ## Proofs: latency, from the request transfer to the next request transfer (R162, R165, R166, R168, R170) -/

namespace Sys2Proof.Machine

/-- The unit after the cycle in which the request transfers, and the step that leads there. -/
theorem State.Accepts.step_eq {s : State} {a b : Word} (h : s.Accepts a b) : step s = .next (s.cycleFrom .IDLE) :=
  step_of_clocked_of_code h.clocked h.idle

theorem State.Accepts.transfers {s : State} {a b : Word} (h : s.Accepts a b) :
    RequestTransferred (packReq a b) s (s.cycleFrom .IDLE) := by
  rw [← h.message]
  exact State.cycleFrom_IDLE_transfers h.noReset h.presented

/-- The first CALC cycle has all `steps b` shifts to go, whatever `a` is. -/
theorem State.Accepts.calculating {s : State} {a b : Word} (h : s.Accepts a b) :
    (s.cycleFrom .IDLE).Calculating (a * b) (steps b) := by
  simpa using h.transfers.calculating

/-- Cycle `j + 1` after the request transfer, for `j` up to `steps b`, is a CALC cycle with `steps b - j` shifts to go. -/
theorem State.Accepts.runSteps_calculating {s : State} {a b : Word} {j : Nat} (h : s.Accepts a b)
    (hr : s.NoResetFor (1 + j)) (hj : j ≤ steps b) :
    ∃ t, runSteps (j + 1) s = .next t ∧ t.Calculating (a * b) (steps b - j) ∧ NoTransfer (s.cycleFrom .IDLE) t := by
  have hcalc : (s.cycleFrom .IDLE).Calculating (a * b) (steps b - j + j) := by
    rw [Nat.sub_add_cancel hj]
    exact h.calculating
  rw [runSteps_succ_of_step h.step_eq]
  exact runSteps_of_calculating h.clocked hcalc (hr.later List.drop_one.symm)

/-- `w` cycles into DONE, the consumer not having been ready, the unit still holds the product. -/
theorem State.Accepts.runSteps_holding {s : State} {a b : Word} {w : Nat} (h : s.Accepts a b)
    (hr : s.NoResetFor (steps b + 2 + w))
    (hstall : ∀ k v, steps b + 2 ≤ k → k < steps b + 2 + w → s.inputs[k]? = some v → v.respRdy = false) :
    ∃ t, runSteps (steps b + 2 + w) s = .next t ∧ t.Holding (a * b) ∧ NoTransfer (s.cycleFrom .IDLE) t := by
  obtain ⟨t, hrun, hcalc, hquiet⟩ := h.runSteps_calculating (hr.listedMeet.mono (by omega)) (Nat.le_refl _)
  rw [Nat.sub_self] at hcalc
  obtain ⟨-, hin⟩ := runSteps_frame h.clocked hrun
  have hnow : t.nowInput.reset = false :=
    (State.NoResetFor.later (n := w + 1) (hr.listedMeet.mono (by omega)) hin).nowInput
  have hdone : runSteps (steps b + 2) s = .next (t.cycleFrom .CALC) :=
    runSteps_succ_of_code h.clocked hrun hcalc.code
  obtain ⟨hcu, hinu⟩ := runSteps_frame h.clocked hdone
  have hlisted : (t.cycleFrom .CALC).ListedMeet w fun v => v.reset = false ∧ v.respRdy = false := by
    intro k v hk hv
    rw [hinu, List.getElem?_drop] at hv
    exact ⟨hr _ v (by omega) hv, hstall _ v (by omega) (by omega) hv⟩
  obtain ⟨u, hrunu, hhold, hquietu⟩ := runSteps_of_holding hcu (hcalc.cycle_last hnow) hlisted
  exact ⟨u, by rw [runSteps_add hdone, hrunu], hhold,
    hquiet.trans ((State.cycleFrom_CALC_noTransfer hnow).trans hquietu)⟩

/-- The response transfers in the first DONE cycle with a ready consumer, `w` cycles into DONE. -/
theorem State.Accepts.runSteps_response {s : State} {a b : Word} {w : Nat} (h : s.Accepts a b)
    (hr : s.NoResetFor (steps b + 2 + w + 1))
    (hstall : ∀ k v, steps b + 2 ≤ k → k < steps b + 2 + w → s.inputs[k]? = some v → v.respRdy = false)
    (hrdy : ∃ v, s.inputs[steps b + 2 + w]? = some v ∧ v.respRdy = true) :
    ∃ t, runSteps (steps b + 2 + w + 1) s = .next t ∧ ResponseTransferred (a * b) (s.cycleFrom .IDLE) t := by
  obtain ⟨t, hrun, hhold, hquiet⟩ := h.runSteps_holding (hr.listedMeet.mono (by omega)) hstall
  obtain ⟨-, hin⟩ := runSteps_frame h.clocked hrun
  obtain ⟨v, hv, hvrdy⟩ := hrdy
  have hnow : t.nowInput = v := State.nowInput_of_getElem?_zero (by rw [hin, List.getElem?_drop, Nat.add_zero, hv])
  refine ⟨t.cycleFrom .DONE, runSteps_succ_of_code h.clocked hrun hhold.code,
    hquiet.responseTransferred (hhold.cycle_taken ?reset ?ready)⟩
  case reset => exact (State.NoResetFor.later (n := 1) hr hin).nowInput
  case ready => rw [hnow, hvrdy]

/-- Settles O41: after the transfer cycle each CALC cycle does one of the `steps b` shifts and keeps the loop invariant,
and the one that finds `B = 0` leaves the product in `R`. -/
theorem latencyAndProduct : Obligations.LatencyAndProduct := by
  intro s a b h hr
  refine ⟨?looping, ?done⟩
  case looping =>
    intro k hk1 hk
    obtain ⟨j, rfl⟩ : ∃ j, k = j + 1 := ⟨k - 1, by omega⟩
    obtain ⟨t, hrun, hcalc, -⟩ := h.runSteps_calculating (j := j) (hr.listedMeet.mono (by omega)) (by omega)
    refine ⟨t, hrun, hcalc.code, hcalc.loop, ?last, ?first⟩
    case last =>
      rw [hcalc.B_eq_zero_iff]
      omega
    case first =>
      intro hj
      rw [hj, runSteps_one, h.step_eq] at hrun
      cases hrun
      have ht := h.transfers
      exact ⟨ht.R, ht.A.trans (reqA_packReq a b), ht.B.trans (reqB_packReq a b)⟩
  case done =>
    obtain ⟨t, hrun, hhold, -⟩ := h.runSteps_holding (w := 0) hr (by omega)
    exact ⟨t, hrun, hhold.code, hhold.result⟩

/-- Settles O43: CALC is O41's; each DONE cycle up to the first with a ready consumer holds the product, and that one
gives it. -/
theorem responseArrivesWithTheProduct : Obligations.ResponseArrivesWithTheProduct := by
  intro s a b w h hr hstall hrdy
  refine ⟨?looping, ?hold, ?response⟩
  case looping =>
    intro k hk1 hk
    obtain ⟨t, hrun, hcode, -⟩ := (latencyAndProduct s a b h (hr.listedMeet.mono (by omega))).1 k hk1 hk
    exact ⟨t, hrun, hcode⟩
  case hold =>
    intro k hk1 hk
    obtain ⟨i, rfl⟩ : ∃ i, k = steps b + 2 + i := ⟨k - (steps b + 2), by omega⟩
    obtain ⟨t, hrun, hhold, hquiet⟩ := h.runSteps_holding (w := i) (hr.listedMeet.mono (by omega))
      fun j v hj1 hj => hstall j v hj1 (by omega)
    exact ⟨t, hrun, hhold.code, by rw [hhold.result, BitVec.toNat_mul], hquiet.delivered.trans h.transfers.delivered⟩
  case response =>
    have hlen : steps b + 3 + w = steps b + 2 + w + 1 := by omega
    rw [hlen] at hr ⊢
    obtain ⟨t, hrun, ht⟩ := h.runSteps_response hr hstall hrdy
    refine ⟨t, hrun, ht.code, by rw [ht.out], by rw [ht.out, BitVec.toNat_mul], ?accepted, ?delivered⟩
    case accepted => rw [ht.accepted, h.transfers.accepted]
    case delivered => rw [ht.delivered, h.transfers.delivered]

/-- Settles O44: a DONE cycle with a ready consumer ends in IDLE, where a presented request transfers; by O43's run, with
no stall, that is `steps b + 3` cycles after the request before it. -/
theorem nextRequestTransfersAtOnce : Obligations.NextRequestTransfersAtOnce := by
  refine ⟨?atOnce, ?throughput⟩
  case atOnce =>
    intro s v w rest hc hdone hin hvreset hvrdy hwreset hwreq
    have hv : s.nowInput = v := s.nowInput_of_cons v _ hin
    have hw : (s.cycleFrom .DONE).nowInput = w :=
      State.nowInput_of_cons _ w rest (by rw [State.cycleFrom_inputs, hin, List.tail_cons])
    have ht : ResponseTransferred s.R s (s.cycleFrom .DONE) :=
      State.Holding.cycle_taken ⟨hdone, rfl⟩ (by rw [hv, hvreset]) (by rw [hv, hvrdy])
    have hu := State.cycleFrom_IDLE_transfers (s := s.cycleFrom .DONE) (by rw [hw, hwreset]) (by rw [hw, hwreq])
    rw [hw] at hu
    exact ⟨_, _, step_of_clocked_of_code hc hdone, ht.code, by rw [ht.out], by rw [ht.out], by rw [ht.out],
      ht.delivered, step_of_clocked_of_code (s := s.cycleFrom .DONE) hc ht.code, hu.code, hu.reqRdy, hu.reqFire, hu.A,
      hu.B, hu.R, by rw [hu.accepted, ht.accepted]⟩
  case throughput =>
    intro s a b m h hr hrdy hreq
    obtain ⟨t, hrun, ht⟩ := h.runSteps_response (w := 0) (hr.listedMeet.mono (by omega)) (by omega) hrdy
    obtain ⟨-, hin⟩ := runSteps_frame h.clocked hrun
    obtain ⟨v, hv, hvreq, hvmsg⟩ := hreq
    have hnow : t.nowInput = v := State.nowInput_of_getElem?_zero (by rw [hin, List.getElem?_drop]; exact hv)
    have hu := State.cycleFrom_IDLE_transfers (s := t) (State.NoResetFor.later (n := 1) hr hin).nowInput
      (by rw [hnow, hvreq])
    rw [hnow, hvmsg] at hu
    refine ⟨t.cycleFrom .IDLE, runSteps_succ_of_code h.clocked hrun ht.code, hu.code, hu.reqFire, ?accepted,
      ?delivered⟩
    case accepted => rw [hu.accepted, ht.accepted, h.transfers.accepted]
    case delivered => rw [hu.delivered, ht.delivered, h.transfers.delivered]

/-- Settles O53: both follow from O41, with `steps 0 = 0` and a product of zero. -/
theorem zeroOperands : Obligations.ZeroOperands := by
  intro s a b h hr
  obtain ⟨hcalc, u, hrun, hcode, hR⟩ := latencyAndProduct s a b h hr
  refine ⟨?multiplier, ?multiplicand⟩
  case multiplier =>
    rintro rfl
    rw [steps_zero] at hcalc hrun
    obtain ⟨t, hrunt, hcodet, -⟩ := hcalc 1 (Nat.le_refl 1) (Nat.le_refl 1)
    exact ⟨t, u, hrunt, hcodet, hrun, hcode, by rw [hR, mul_zero]⟩
  case multiplicand =>
    rintro rfl
    exact ⟨u, hrun, hcode, by rw [hR, zero_mul]⟩

end Sys2Proof.Machine

/-! ## Proofs: the whole multiplication (R161, R173) -/

namespace Sys2Proof.Machine

/-! ### The ports of a cycle of MUL -/

theorem State.mulInput_of_nil {s : State} (h : s.inputs = []) :
    s.mulInput.reset = false ∧ s.mulInput.respRdy = true := by
  rw [State.mulInput, h]
  exact ⟨rfl, rfl⟩

theorem State.mulInput_of_cons {s : State} {v : Input} {rest : List Input} (h : s.inputs = v :: rest) :
    s.mulInput = v := by
  rw [State.mulInput, h]

theorem State.mulInput_reset {s : State} (h : ∀ v ∈ s.inputs, v.reset = false) : s.mulInput.reset = false := by
  cases hin : s.inputs with
  | nil => exact (State.mulInput_of_nil hin).1
  | cons v rest =>
    rw [State.mulInput_of_cons hin]
    exact h v (by simp [hin])

theorem Input.sending_of_not_reset {v : Input} (h : v.reset = false) (m : ReqMsg) :
    v.sending m = { v with reqEn := true, reqMsg := m } := by
  rw [Input.sending, h, if_neg Bool.false_ne_true]

/-- A cycle uses up one listed vector, so one that lists no reset leaves none listed. -/
theorem noReset_tail {s t : State} (h : ∀ v ∈ s.inputs, v.reset = false) (ht : t.inputs = s.inputs.tail) :
    ∀ v ∈ t.inputs, v.reset = false := by
  rw [ht]
  exact fun v hv => h v (List.mem_of_mem_tail hv)

/-! ### The cycles of an operation under way -/

/-- The response `p` is owed, and transfers within `n` cycles: those of CALC, and those the listed vectors can hold the
unit in DONE. -/
def State.Answers (s : State) (p : Word) (n : Nat) : Prop :=
  (∃ k, s.Calculating p k ∧ k + 2 + s.inputs.length ≤ n) ∨ (s.Holding p ∧ s.inputs.length + 1 ≤ n)

theorem State.Answers.pos {s : State} {p : Word} {n : Nat} (h : s.Answers p n) : 0 < n := by
  rcases h with ⟨_, _, hk⟩ | ⟨_, hk⟩ <;> omega

/-- A unit in CALC or DONE owes a response, within the cycles that `receiveCycles` allows. -/
theorem State.Answers.of_calculating {s : State} {p : Word} {k : Nat} (h : s.Calculating p k) :
    s.Answers p (receiveCycles s) := by
  have hk : k ≤ 32 := by
    rw [← h.left]
    exact steps_le s.B
  exact .inl ⟨k, h, by rw [receiveCycles]; omega⟩

theorem State.Answers.of_holding {s : State} {p : Word} (h : s.Holding p) : s.Answers p (receiveCycles s) :=
  .inr ⟨h, by rw [receiveCycles]; omega⟩

/-- One cycle of a unit that owes a response, the consumer ready where nothing is listed: either it transfers nothing and
the response is one cycle nearer, or it transfers the response. No request transfers in it. -/
theorem State.Answers.tick {s : State} {p : Word} {n : Nat} {v : Input} (h : s.Answers p (n + 1))
    (hreset : v.reset = false) (hrdy : s.inputs = [] → v.respRdy = true) :
    ∃ t, (s.drivenBy v).tick = .next t ∧ t.inputs = s.inputs.tail ∧ t.out.reqFire = false ∧
      (t.out.respFire = false ∧ t.Answers p n ∧ NoTransfer s t ∨
        t.out.respFire = true ∧ ResponseTransferred p s t) := by
  have hlen (q : FsmState) : ((s.drivenBy v).cycleFrom q).inputs.length = s.inputs.length - 1 := List.length_tail
  rcases h with ⟨k, hcalc, hk⟩ | ⟨hhold, hk⟩
  · have hcalc' : (s.drivenBy v).Calculating p k := ⟨hcalc.code, hcalc.loop, hcalc.left⟩
    have hquiet := (NoTransfer.drivenBy s v).trans (State.cycleFrom_CALC_noTransfer (s := s.drivenBy v) hreset)
    have hout := (s.drivenBy v).cycleFrom_CALC_out
    refine ⟨_, State.tick_of_code hcalc'.code, rfl, by rw [hout], .inl ⟨by rw [hout], ?answers, hquiet⟩⟩
    cases k with
    | zero => exact .inr ⟨hcalc'.cycle_last hreset, by rw [hlen]; omega⟩
    | succ k => exact .inl ⟨k, hcalc'.cycle hreset, by rw [hlen]; omega⟩
  · have hhold' : (s.drivenBy v).Holding p := ⟨hhold.code, hhold.result⟩
    have hout := (s.drivenBy v).cycleFrom_DONE_out
    refine ⟨_, State.tick_of_code hhold'.code, rfl, by rw [hout], ?_⟩
    rw [hout]
    cases hv : v.respRdy with
    | true =>
      exact .inr ⟨hv, (NoTransfer.drivenBy s v).responseTransferred (hhold'.cycle_taken hreset hv)⟩
    | false =>
      have hpos : 0 < s.inputs.length := List.length_pos_iff.2 fun hnil => by simp [hrdy hnil] at hv
      exact .inl ⟨hv, .inr ⟨hhold'.cycle_stalled hreset hv, by rw [hlen]; omega⟩,
        (NoTransfer.drivenBy s v).trans (State.cycleFrom_DONE_noTransfer hreset hv)⟩

/-! ### The two loops of MUL -/

theorem mulReceive_succ {s t : State} (h : (s.drivenBy s.mulInput).tick = .next t) (hreset : s.mulInput.reset = false)
    (fuel : Nat) :
    mulReceive (fuel + 1) s = if t.out.respFire then .next t else mulReceive fuel t := by
  simp only [mulReceive, h, hreset, Bool.false_or]

theorem mulSend_succ {s t : State} {m : ReqMsg} (h : (s.drivenBy (s.mulInput.sending m)).tick = .next t)
    (hreset : s.mulInput.reset = false) (fuel : Nat) :
    mulSend m (fuel + 1) s = if t.out.reqFire then mulReceive (receiveCycles t) t else mulSend m fuel t := by
  simp only [mulSend, h, hreset, if_neg Bool.false_ne_true]

/-- Without a reset the consumer's loop ends with the transfer of the response that is owed. -/
theorem mulReceive_of_answers {p : Word} {n : Nat} {s : State} (h : s.Answers p n)
    (hr : ∀ v ∈ s.inputs, v.reset = false) : ∃ t, mulReceive n s = .next t ∧ ResponseTransferred p s t := by
  induction n generalizing s with
  | zero => exact absurd h.pos (Nat.lt_irrefl 0)
  | succ n ih =>
    have hreset := State.mulInput_reset hr
    obtain ⟨t, htick, hin, -, hcase⟩ := h.tick hreset fun hnil => (State.mulInput_of_nil hnil).2
    rw [mulReceive_succ htick hreset]
    rcases hcase with ⟨hfire, hans, hquiet⟩ | ⟨hfire, hresp⟩
    · obtain ⟨u, hrun, hu⟩ := ih hans (noReset_tail hr hin)
      exact ⟨u, by rw [hfire, if_neg Bool.false_ne_true, hrun], hquiet.responseTransferred hu⟩
    · exact ⟨t, by rw [hfire, if_pos rfl], hresp⟩

/-- From IDLE the requester's loop takes the request in its first cycle, and the consumer's loop answers it. -/
theorem mulSend_of_idle {m : ReqMsg} {s : State} (hidle : s.S = FsmState.IDLE.code)
    (hr : ∀ v ∈ s.inputs, v.reset = false) (fuel : Nat) :
    ∃ t u, mulSend m (fuel + 1) s = .next u ∧ RequestTransferred m s t ∧ ResponseTransferred (product m) t u := by
  have hreset := State.mulInput_reset hr
  have hsend := Input.sending_of_not_reset hreset m
  have htick : (s.drivenBy (s.mulInput.sending m)).tick =
      .next ((s.drivenBy (s.mulInput.sending m)).cycleFrom .IDLE) := State.tick_of_code hidle
  have ht : RequestTransferred m (s.drivenBy (s.mulInput.sending m))
      ((s.drivenBy (s.mulInput.sending m)).cycleFrom .IDLE) := by
    rw [hsend]
    exact State.cycleFrom_IDLE_transfers (s := s.drivenBy { s.mulInput with reqEn := true, reqMsg := m }) hreset rfl
  obtain ⟨u, hrun, hu⟩ := mulReceive_of_answers (.of_calculating ht.calculating) (noReset_tail hr rfl)
  exact ⟨_, u, by rw [mulSend_succ htick hreset, ht.reqFire, if_pos rfl, hrun],
    (NoTransfer.drivenBy s _).requestTransferred ht, hu⟩

/-- From CALC or DONE the requester's loop first completes the earlier multiplication, whose response it leaves to the
same consumer, and comes to IDLE with cycles left (log entry 4). -/
theorem mulSend_of_answers {m : ReqMsg} {p : Word} {n : Nat} {s : State} (h : s.Answers p n)
    (hr : ∀ v ∈ s.inputs, v.reset = false) :
    ∃ t k, mulSend m (n + 1) s = mulSend m (k + 1) t ∧ t.S = FsmState.IDLE.code ∧ t.mulQueue = s.mulQueue ∧
      ∀ v ∈ t.inputs, v.reset = false := by
  induction n generalizing s with
  | zero => exact absurd h.pos (Nat.lt_irrefl 0)
  | succ n ih =>
    have hreset := State.mulInput_reset hr
    have hsend := Input.sending_of_not_reset hreset m
    obtain ⟨t, htick, hin, hfire, hcase⟩ := h.tick (v := s.mulInput.sending m) (by rw [hsend, hreset])
      fun hnil => by rw [hsend]; exact (State.mulInput_of_nil hnil).2
    rw [mulSend_succ htick hreset, hfire, if_neg Bool.false_ne_true]
    rcases hcase with ⟨-, hans, hquiet⟩ | ⟨-, hresp⟩
    · obtain ⟨u, k, hrun, hidle, hqueue, hru⟩ := ih hans (noReset_tail hr hin)
      exact ⟨u, k, hrun, hidle, hqueue.trans hquiet.mulQueue, hru⟩
    · exact ⟨t, n, rfl, hresp.code, hresp.mulQueue, noReset_tail hr hin⟩

/-- MUL from each of the three states, without a reset: the unit comes to IDLE, at once if it is there, takes the
request, and gives the product as its response (R161). -/
theorem exec_mul_of_legal (a b : Word) {s : State} (hlegal : s.Legal) (hr : ∀ v ∈ s.inputs, v.reset = false) :
    ∃ i t u, exec (.mul a b) s = .next u ∧ i.mulQueue = s.mulQueue ∧ (s.S = FsmState.IDLE.code → i = s) ∧
      RequestTransferred (packReq a b) i t ∧ ResponseTransferred (a * b) t u := by
  have hexec : exec (.mul a b) s = mulSend (packReq a b) (receiveCycles s + 1) s := rfl
  rw [hexec, ← product_packReq a b]
  by_cases hidle : s.S = FsmState.IDLE.code
  · obtain ⟨t, u, hrun, ht, hu⟩ := mulSend_of_idle hidle hr (receiveCycles s)
    exact ⟨s, t, u, hrun, rfl, fun _ => rfl, ht, hu⟩
  · obtain ⟨p, hans⟩ : ∃ p, s.Answers p (receiveCycles s) := by
      obtain ⟨q, hq⟩ := hlegal.exists_state
      cases q with
      | IDLE => exact absurd hq hidle
      | CALC => exact ⟨_, .of_calculating ⟨hq, rfl, rfl⟩⟩
      | DONE => exact ⟨_, .of_holding ⟨hq, rfl⟩⟩
    obtain ⟨i, k, hsend, hi, hqueue, hri⟩ := mulSend_of_answers (m := packReq a b) hans hr
    obtain ⟨t, u, hrun, ht, hu⟩ := mulSend_of_idle (m := packReq a b) hi hri k
    exact ⟨i, t, u, hsend.trans hrun, hqueue, fun h => absurd h hidle, ht, hu⟩

/-- The low 32 bits of the product are those of the product of the signed readings (R173). -/
theorem ofInt_toInt_mul (a b : Word) : BitVec.ofInt 32 (a.toInt * b.toInt) = a * b := by
  rw [BitVec.ofInt_mul, BitVec.ofInt_toInt, BitVec.ofInt_toInt]

/-- Settles O52: MUL's response is the product of the words, which is also that of their signed readings. -/
theorem mulOfSignedReadings : Obligations.MulOfSignedReadings := by
  intro a b s hlegal hr
  obtain ⟨_, _, u, hrun, -, -, -, hu⟩ := exec_mul_of_legal a b hlegal hr
  exact ⟨u, hrun, by rw [hu.out, ofInt_toInt_mul]⟩

end Sys2Proof.Machine

/-! ## Proofs: misuse of the handshakes is a no-op (R181, R182) -/

namespace Sys2Proof.Machine

/-! ### What `Step` does not read -/

/-- In CALC no input but reset is read: the FSM drives both handshakes with 0 and no mux selects the message. -/
theorem unitStep_CALC_of_reset_eq (d : DataRegs) {v v' : Input} (w : Draws) (h : v'.reset = v.reset) :
    unitStep .CALC d v' w = unitStep .CALC d v w := by
  have hout : outputsOf v' false false d.r = outputsOf v false false d.r := by rw [outputsOf_silent, outputsOf_silent]
  simp only [unitStep, fsmOutputs, hout, h]
  rfl

/-- Outside IDLE `req_rdy` is 0, so `req_en` is not read. -/
theorem unitStep_reqEn {q : FsmState} (hq : q ≠ .IDLE) (d : DataRegs) (v : Input) (w : Draws) (b : Bool) :
    unitStep q d { v with reqEn := b } w = unitStep q d v w := by
  cases q with
  | IDLE => exact absurd rfl hq
  | CALC => exact unitStep_CALC_of_reset_eq d w rfl
  | DONE => simp only [unitStep, fsmOutputs, outputsOf, Bool.and_false]

/-- Outside DONE `resp_en` is 0, so `resp_rdy` is not read. -/
theorem unitStep_respRdy {q : FsmState} (hq : q ≠ .DONE) (d : DataRegs) (v : Input) (w : Draws) (b : Bool) :
    unitStep q d { v with respRdy := b } w = unitStep q d v w := by
  cases q with
  | IDLE => rfl
  | CALC => exact unitStep_CALC_of_reset_eq d w rfl
  | DONE => exact absurd rfl hq

/-- A request transfers in IDLE only. -/
theorem unitStep_reqFire_of_ne_IDLE {q : FsmState} (hq : q ≠ .IDLE) (d : DataRegs) (v : Input) (w : Draws) :
    (unitStep q d v w).out.reqFire = false := by
  cases q with
  | IDLE => exact absurd rfl hq
  | CALC => exact Bool.and_false _
  | DONE => exact Bool.and_false _

/-- A response transfers in DONE only. -/
theorem unitStep_respFire_of_ne_DONE {q : FsmState} (hq : q ≠ .DONE) (d : DataRegs) (v : Input) (w : Draws) :
    (unitStep q d v w).out.respFire = false := by
  cases q with
  | IDLE => exact Bool.false_and v.respRdy
  | CALC => exact Bool.false_and v.respRdy
  | DONE => exact absurd rfl hq

/-! ### Cycles that commit the same -/

/-- Two cycles in which `Step` gives the same, and resets alike, are the same cycle, provided a message that is recorded
as transferred is the same. -/
theorem State.cycleFrom_withInputs_congr {q : FsmState} {s : State} {v v' : Input} (rest : List Input)
    (hstep : s.stepOn q v' = s.stepOn q v) (hreset : v'.reset = v.reset)
    (hmsg : (s.stepOn q v).out.reqFire = true → v'.reqMsg = v.reqMsg) :
    (s.withInputs (v' :: rest)).cycleFrom q = (s.withInputs (v :: rest)).cycleFrom q := by
  rw [State.cycleFrom_withInputs, State.cycleFrom_withInputs, hstep]
  ext : 1
  case accepted =>
    simp only [State.commit_accepted, State.setShamt_nowInput, State.withInputs_nowInput, hreset]
    cases hfire : (s.stepOn q v).out.reqFire with
    | true => rw [hmsg hfire]; rfl
    | false => rfl
  case delivered =>
    simp only [State.commit_delivered, State.setShamt_nowInput, State.withInputs_nowInput, hreset]
    rfl
  all_goals rfl

/-- Outside IDLE a cycle is the same whatever `req_en` is. -/
theorem State.cycleFrom_reqEn {q : FsmState} (hq : q ≠ .IDLE) (s : State) (v : Input) (rest : List Input) (b c : Bool) :
    (s.withInputs ({ v with reqEn := b } :: rest)).cycleFrom q =
      (s.withInputs ({ v with reqEn := c } :: rest)).cycleFrom q := by
  refine State.cycleFrom_withInputs_congr rest ?_ ?_ fun _ => ?_
  · simp only [State.stepOn, unitStep_reqEn hq]
  all_goals rfl

/-- Outside DONE a cycle is the same whatever `resp_rdy` is. -/
theorem State.cycleFrom_respRdy {q : FsmState} (hq : q ≠ .DONE) (s : State) (v : Input) (rest : List Input)
    (b c : Bool) : (s.withInputs ({ v with respRdy := b } :: rest)).cycleFrom q =
      (s.withInputs ({ v with respRdy := c } :: rest)).cycleFrom q := by
  refine State.cycleFrom_withInputs_congr rest ?_ ?_ fun _ => ?_
  · simp only [State.stepOn, unitStep_respRdy hq]
  all_goals rfl

/-- In CALC a cycle is the same whatever the inputs other than reset are (R171). -/
theorem State.cycleFrom_CALC_of_reset_eq (s : State) {v v' : Input} (rest : List Input) (h : v'.reset = v.reset) :
    (s.withInputs (v' :: rest)).cycleFrom .CALC = (s.withInputs (v :: rest)).cycleFrom .CALC := by
  refine State.cycleFrom_withInputs_congr rest (unitStep_CALC_of_reset_eq _ _ h) h fun hfire => ?_
  have hnone : (s.stepOn .CALC v).out.reqFire = false := unitStep_reqFire_of_ne_IDLE (by decide) ..
  rw [hnone] at hfire
  cases hfire

/-- Outside IDLE a cycle takes no request (R131); a reset cycle empties the record (R58). -/
theorem State.cycleFrom_takes_no_request {q : FsmState} (hq : q ≠ .IDLE) (s : State) :
    (s.cycleFrom q).out.reqFire = false ∧
      (s.cycleFrom q).accepted = if s.nowInput.reset then [] else s.accepted := by
  have hfire := unitStep_reqFire_of_ne_IDLE hq { a := s.A, b := s.B, r := s.R } s.nowInput
    (drawsAt s.drawStream s.drawIdx)
  refine ⟨hfire, ?accepted⟩
  case accepted =>
    rw [State.cycleFrom, State.commit_accepted, hfire, if_neg Bool.false_ne_true]
    rfl

/-! ### The two misuses -/

/-- Settles O27: outside IDLE both cycles are one cycle of `Step`, which reads no `req_en` and takes no request; in CALC
it reads no input but reset. -/
theorem requestMisuseIsNoOp : Obligations.RequestMisuseIsNoOp := by
  intro s v m rest hclocked
  have hstep {q : FsmState} (hq : s.S = q.code) (v : Input) :
      step (s.withInputs (v :: rest)) = .next ((s.withInputs (v :: rest)).cycleFrom q) :=
    step_of_clocked_of_code hclocked hq
  constructor
  · intro hcode
    obtain ⟨q, hne, hq⟩ : ∃ q : FsmState, q ≠ .IDLE ∧ s.S = q.code := by
      rcases hcode with h | h
      · exact ⟨.CALC, by decide, h⟩
      · exact ⟨.DONE, by decide, h⟩
    obtain ⟨hfire, haccepted⟩ :=
      State.cycleFrom_takes_no_request hne (s.withInputs ({ v with reqEn := true } :: rest))
    refine ⟨_, hstep hq _, ?same, hfire, haccepted, fun hdone => ?result⟩
    case same => rw [hstep hq, State.cycleFrom_reqEn hne s v rest false true]
    case result => rw [FsmState.code_injective (hq.symm.trans hdone), State.cycleFrom_DONE_R, State.withInputs_R]
  · intro hcalc
    exact ⟨_, hstep hcalc _, (hstep hcalc _).trans (congrArg _ (State.cycleFrom_CALC_of_reset_eq s rest rfl))⟩

/-- Settles O28: outside DONE both cycles are one cycle of `Step`, which reads no `resp_rdy` and gives no response. -/
theorem responseMisuseIsNoOp : Obligations.ResponseMisuseIsNoOp := by
  intro s v rest hclocked hcode
  obtain ⟨q, hne, hq⟩ : ∃ q : FsmState, q ≠ .DONE ∧ s.S = q.code := by
    rcases hcode with h | h
    · exact ⟨.IDLE, by decide, h⟩
    · exact ⟨.CALC, by decide, h⟩
  have hstep (v : Input) : step (s.withInputs (v :: rest)) = .next ((s.withInputs (v :: rest)).cycleFrom q) :=
    step_of_clocked_of_code hclocked hq
  refine ⟨_, hstep _, ?same, unitStep_respFire_of_ne_DONE hne ..⟩
  case same => rw [hstep, State.cycleFrom_respRdy hne s v rest false true]

end Sys2Proof.Machine

/-! ## Proofs: several units (R187) -/

namespace Sys2Proof.Machine

/-- Units in states of the unit all run a cycle, each its own. -/
theorem Units.step_of_legal {us : List State} (h : ∀ u ∈ us, u.Legal) :
    ∃ ts, Units.step us = .next ts ∧ List.Forall₂ (fun u t => u.tick = .next t) us ts := by
  induction us with
  | nil => exact ⟨[], Units.step_nil, .nil⟩
  | cons u us ih =>
    obtain ⟨hu, hus⟩ := List.forall_mem_cons.1 h
    obtain ⟨q, hq⟩ := hu.exists_state
    have htick := State.tick_of_code hq
    obtain ⟨ts, hstep, hall⟩ := ih hus
    exact ⟨_, Units.step_cons (u.runCycle_eq_tick.trans htick) hstep, .cons htick hall⟩

/-- Units that each run a cycle keep their sequences of draws. -/
theorem Units.drawStream_of_ticks {us ts : List State} (h : List.Forall₂ (fun u t => u.tick = .next t) us ts) :
    ts.map State.drawStream = us.map State.drawStream := by
  rw [← List.forall₂_eq_eq_eq, List.forall₂_map_left_iff, List.forall₂_map_right_iff]
  refine h.flip.imp fun t u htick => ?_
  obtain ⟨-, -, -, hdraw, -⟩ := State.tick_frame htick
  exact hdraw

/-- Settles O54: each unit's cycle is its own `Step`, committed to its own registers; the frame of a cycle keeps the
rest. -/
theorem unitsAreIndependent : Obligations.UnitsAreIndependent := by
  intro us hlegal
  obtain ⟨ts, hstep, hticks⟩ := Units.step_of_legal hlegal
  refine ⟨ts, hstep, hticks.length_eq.symm, ?draws, ?units⟩
  case draws => rw [Units.OwnDraws, Units.OwnDraws, Units.drawStream_of_ticks hticks]; exact id
  case units =>
    intro k u q hk hq
    obtain ⟨hlt, rfl⟩ := List.getElem?_eq_some_iff.1 hk
    have hlt' : k < ts.length := hticks.length_eq ▸ hlt
    have htick : us[k].tick = .next ts[k] := hticks.get hlt hlt'
    rw [State.tick_of_code hq] at htick
    injection htick with ht
    refine ⟨ts[k], List.getElem?_eq_getElem hlt', ?_⟩
    rw [← ht]
    exact ⟨rfl, rfl, rfl, rfl, rfl, rfl, rfl, rfl, rfl⟩

/-- Settles O58: the sequences of draws after reset are numbered, and each unit is the reset state but for its own. -/
theorem unitsResetWithOwnDraws : Obligations.UnitsResetWithOwnDraws := by
  intro n
  refine ⟨?length, ?draws, fun u hu => ?unit⟩
  case length => simp [Units.reset]
  case draws => rw [Units.OwnDraws, Units.reset_drawStream]; exact List.nodup_range
  case unit =>
    obtain ⟨k, -, rfl⟩ := List.mem_map.1 hu
    exact ⟨rfl, rfl, FsmState.code_legal .IDLE⟩

end Sys2Proof.Machine

/-! ## Proofs: the first cycle after reset (R202) -/

namespace Sys2Proof.Machine

/-- An IDLE cycle drives `req_rdy = 1` and `resp_en = 0`, whatever is presented (R140). -/
theorem State.cycleFrom_IDLE_out (s : State) : (s.cycleFrom .IDLE).out = outputsOf s.nowInput true false s.R := by
  rw [State.cycleFrom_IDLE, State.endCycle_out, State.setShamt_nowInput, State.setShamt_R]

/-- Settles O46: the reset cycle of O23 ends in IDLE with nothing recorded, and the IDLE cycle that follows it is ready
and takes the request presented in it, the first since reset. -/
theorem readyRightAfterReset : Obligations.ReadyRightAfterReset := by
  intro s v w rest hlegal hc hin hvreset hwreset
  obtain ⟨q, hq⟩ := hlegal.exists_state
  have hv : s.nowInput.reset = true := by rw [s.nowInput_of_cons v _ hin, hvreset]
  obtain ⟨hidle, haccepted, -⟩ := State.cycleFrom_of_reset q hv
  have hw : (s.cycleFrom q).nowInput = w :=
    State.nowInput_of_cons _ w rest (by rw [State.cycleFrom_inputs, hin, List.tail_cons])
  have hout := (s.cycleFrom q).cycleFrom_IDLE_out
  refine ⟨s.cycleFrom q, (s.cycleFrom q).cycleFrom .IDLE, step_of_clocked_of_code hc hq, hidle,
    step_of_clocked_of_code (s := s.cycleFrom q) hc hidle, by rw [hout, outputsOf_reqRdy],
    by rw [hout, outputsOf_respEn], fun hwreq => ?request⟩
  case request =>
    have hu := State.cycleFrom_IDLE_transfers (s := s.cycleFrom q) (by rw [hw, hwreset]) (by rw [hw, hwreq])
    rw [hw] at hu
    exact ⟨hu.reqFire, hu.code, hu.A, hu.B, hu.R, by rw [hu.accepted, haccepted]⟩

end Sys2Proof.Machine

/-! ## Proofs: encoding and decoding are inverse, format by format -/

namespace Sys2Proof.Machine

/-! ### Every operation is read back from its word -/

theorem decodeReq_of_encode {i : Instr} {m : ReqMsg} (henc : encode i = .req m) : decodeReq m = i := by
  cases i with
  | mul a b => cases henc; rw [decodeReq, reqA_packReq, reqB_packReq]
  | _ => cases henc

/-- The decode map of R79 gives back the code of each row and the bit that the row leaves free. -/
theorem decodeCtrl_of_encode {i : Instr} {w : CtrlWord} (henc : encode i = .ctrl w) : decodeCtrl w = i := by
  cases i with
  | idleLoad x => cases henc; revert x; decide
  | calcShiftAdd => cases henc; decide
  | calcShift => cases henc; decide
  | doneHold x => cases henc; revert x; decide
  | state3Reserved x => cases henc; revert x; decide
  | _ => cases henc

/-- Settles O1: by the format of the operation's word; only in the calculator's format do the rows overlap, and there
well-formedness picks the row. -/
theorem decodeOfEncode : Obligations.DecodeOfEncode := by
  intro i hwf
  cases henc : encode i with
  | req m => exact decodeReq_of_encode henc
  | ctrl w => exact decodeCtrl_of_encode henc
  | shamtIn v => exact decodeShamt_of_wellFormed henc hwf

/-! ### Every word is the word of an operation -/

theorem exists_encode_eq_ctrl (w : CtrlWord) : ∃ i : Instr, i.WellFormed = true ∧ encode i = .ctrl w := by
  refine ⟨decodeCtrl w, ?_⟩
  revert w; decide

/-- An input meets the mask and match of some row, which makes that row's operation well formed. -/
theorem exists_encode_eq_shamtIn (v : ShamtIn) : ∃ i : Instr, i.WellFormed = true ∧ encode i = .shamtIn v := by
  rcases shamtRows_cover v with h | h | h | h | h | h | h | h | h
  · exact ⟨.shamt1Lsb v, (ShamtIn.meets_iff ..).2 h, rfl⟩
  · exact ⟨.shamt1 v, (ShamtIn.meets_iff ..).2 h, rfl⟩
  · exact ⟨.shamt2 v, (ShamtIn.meets_iff ..).2 h, rfl⟩
  · exact ⟨.shamt3 v, (ShamtIn.meets_iff ..).2 h, rfl⟩
  · exact ⟨.shamt4 v, (ShamtIn.meets_iff ..).2 h, rfl⟩
  · exact ⟨.shamt5 v, (ShamtIn.meets_iff ..).2 h, rfl⟩
  · exact ⟨.shamt6 v, (ShamtIn.meets_iff ..).2 h, rfl⟩
  · exact ⟨.shamt7 v, (ShamtIn.meets_iff ..).2 h, rfl⟩
  · exact ⟨.shamt8 v, (ShamtIn.meets_iff ..).2 h, rfl⟩

theorem exists_encode_eq (e : Encoded) : ∃ i : Instr, i.WellFormed = true ∧ encode i = e := by
  cases e with
  | req m => exact ⟨.mul (reqA m) (reqB m), rfl, by rw [encode, packReq_halves]⟩
  | ctrl w => exact exists_encode_eq_ctrl w
  | shamtIn v => exact exists_encode_eq_shamtIn v

/-- Settles O2: the word is that of a well-formed operation, which O1 reads back from it. -/
theorem encodeOfDecode : Obligations.EncodeOfDecode := by
  intro e
  obtain ⟨i, hwf, rfl⟩ := exists_encode_eq e
  rw [decodeOfEncode i hwf]
  exact ⟨hwf, rfl⟩

/-! ### The decode map of the control word, row by row (R79) -/

/-- Settles O4: the rows are five and the words eight. -/
theorem controlRowsByMask : Obligations.ControlRowsByMask := by
  unfold Obligations.ControlRowsByMask
  decide

/-- Settles O6: each word is the encoding of the operation it stands for, which O1 reads back. -/
theorem wordsOfEachFormat : Obligations.WordsOfEachFormat :=
  ⟨decodeOfEncode (.mul 6 7) rfl, decodeOfEncode (.idleLoad 1) rfl, decodeOfEncode .calcShiftAdd rfl,
    decodeOfEncode .calcShift rfl, decodeOfEncode (.doneHold 0) rfl, decodeOfEncode (.state3Reserved 1) rfl,
    decodeOfEncode (.shamt1Lsb 0xFF) rfl, decodeOfEncode (.shamt3 0x28) rfl, decodeOfEncode (.shamt7 0x80) rfl⟩

/-! ### The input vector (R91) -/

/-- A vector of inputs, as a number. -/
theorem Input.vector_toNat (v : Input) : v.vector.toNat =
    v.reset.toNat * 2 ^ 66 + v.reqEn.toNat * 2 ^ 65 + v.respRdy.toNat * 2 ^ 64 + v.reqMsg.toNat := by
  have happend {m n : Nat} (x : BitVec m) (y : BitVec n) : (x ++ y).toNat = x.toNat * 2 ^ n + y.toNat := by
    rw [BitVec.toNat_append, ← Nat.shiftLeft_add_eq_or_of_lt y.isLt, Nat.shiftLeft_eq]
  simp only [Input.vector, happend, BitVec.toNat_ofBool]
  ring

theorem Input.ofVector_vector (v : Input) : Input.ofVector v.vector = v := by
  have hreset : v.vector.getLsbD 66 = v.reset := by simp only [Input.vector, BitVec.getLsbD_append]; simp
  have hreqEn : v.vector.getLsbD 65 = v.reqEn := by simp only [Input.vector, BitVec.getLsbD_append]; simp
  have hrespRdy : v.vector.getLsbD 64 = v.respRdy := by simp only [Input.vector, BitVec.getLsbD_append]; simp
  have hreqMsg : v.vector.extractLsb' 0 64 = v.reqMsg := BitVec.extractLsb'_append_eq_right
  rw [Input.ofVector, hreset, hreqEn, hrespRdy, hreqMsg]

theorem Input.vector_ofVector (x : BitVec 67) : (Input.ofVector x).vector = x := by
  have hbit (i : Nat) : (x.getLsbD i).toNat = x.toNat / 2 ^ i % 2 := Nat.toNat_testBit x.toNat i
  have hmsg : (x.extractLsb' 0 64).toNat = x.toNat % 2 ^ 64 := by simp
  have hlt := x.isLt
  apply BitVec.eq_of_toNat_eq
  rw [Input.vector_toNat]
  simp only [Input.ofVector, hbit, hmsg]
  omega

/-- Settles O7: the vector and its reading are inverse, and the fields of the vector add up. -/
theorem inputVectorHoldsTheInputs : Obligations.InputVectorHoldsTheInputs :=
  ⟨fun v => ⟨v.ofVector_vector, v.vector_toNat⟩, Input.vector_ofVector⟩

end Sys2Proof.Machine

/-! ## Proofs: stale operands are never seen (R31) -/

namespace Sys2Proof.Machine

theorem FsmState.code_inj {p q : FsmState} : p.code = q.code ↔ p = q := ⟨FsmState.code_injective, congrArg _⟩

/-! ### States that look the same from outside -/

theorem SameOutside.nowInput {s t : State} (h : SameOutside s t) : t.nowInput = s.nowInput := by
  simp only [State.nowInput, h.inputs, h.drawStream, h.drawIdx]

theorem SameOutside.setShamt {s t : State} (h : SameOutside s t) (k k' : ShamtOut) :
    SameOutside (s.setShamt k) (t.setShamt k') := ⟨h.1, h.2, h.3, h.4, h.5, h.6, h.7, h.8, h.9⟩

/-- The end of a cycle that drives the same and leaves the same in `S` and `R` keeps the outside the same, whatever `A`
and `B` take. -/
theorem SameOutside.endCycle {s t : State} (h : SameOutside s t) (rdy en : Bool) (q : FsmState) (a b a' b' r : Word) :
    SameOutside (s.endCycle rdy en q a b r) (t.endCycle rdy en q a' b' r) where
  S := rfl
  R := rfl
  out := by simp [h.nowInput, h.R]
  accepted := by simp [h.nowInput, h.accepted]
  delivered := by simp [h.nowInput, h.R, h.delivered]
  inputs := by simp [h.inputs]
  mulQueue := by simp [h.mulQueue]
  drawStream := by simp [h.drawStream]
  drawIdx := by simp [h.drawIdx]

/-! ### The relation that every cycle keeps -/

/-- Two units that look the same from outside and, while a multiplication runs, hold the same operands: what `A` and `B`
hold in IDLE and in DONE is stale. -/
structure SameButStale (s t : State) : Prop extends SameOutside s t where
  operands : s.S = FsmState.CALC.code → t.A = s.A ∧ t.B = s.B

/-- IDLE loads both operands before CALC reads them, CALC works on the same ones, and DONE does not lead to CALC. -/
theorem SameButStale.cycleFrom {s t : State} {q : FsmState} (h : SameButStale s t) (hq : s.S = q.code) :
    SameButStale (s.cycleFrom q) (t.cycleFrom q) := by
  have hnow := h.nowInput
  cases q with
  | IDLE =>
    rw [State.cycleFrom_IDLE, State.cycleFrom_IDLE, hnow]
    exact ⟨(h.setShamt ..).endCycle .., fun _ => ⟨rfl, rfl⟩⟩
  | CALC =>
    obtain ⟨hA, hB⟩ := h.operands hq
    rw [State.cycleFrom_CALC, State.cycleFrom_CALC, hnow, hA, hB, h.R]
    exact ⟨(h.setShamt ..).endCycle .., fun _ => ⟨rfl, rfl⟩⟩
  | DONE =>
    rw [State.cycleFrom_DONE, State.cycleFrom_DONE, hnow, h.R]
    refine ⟨(h.setShamt ..).endCycle .., fun hcalc => ?_⟩
    rw [State.endCycle_S, FsmState.code_inj] at hcalc
    rw [afterReset] at hcalc
    split at hcalc
    · cases hcalc
    · split at hcalc <;> cases hcalc

theorem SameButStale.runSteps {s t : State} (h : SameButStale s t) (hc : s.Clocked) (hlegal : s.Legal) (n : Nat) :
    ∃ s' t', runSteps n s = .next s' ∧ runSteps n t = .next t' ∧ SameButStale s' t' := by
  induction n generalizing s t with
  | zero => exact ⟨s, t, rfl, rfl, h⟩
  | succ n ih =>
    obtain ⟨q, hq⟩ := hlegal.exists_state
    rw [runSteps_succ_of_step (step_of_clocked_of_code hc hq),
      runSteps_succ_of_step (step_of_clocked_of_code (h.mulQueue.trans hc) (h.S.trans hq))]
    exact ih (h.cycleFrom hq) hc (FsmState.code_legal _)

/-- Settles O30: two such units are the same but for stale operands, which every cycle keeps. -/
theorem staleOperandsAreNeverSeen : Obligations.StaleOperandsAreNeverSeen := by
  intro n s t hc h hcode
  have hlegal : s.Legal := by
    rcases hcode with hq | hq <;> rw [State.Legal, hq] <;> exact FsmState.code_legal _
  have hstale : SameButStale s t := ⟨h, fun hcalc => by
    rcases hcode with hq | hq <;> cases FsmState.code_injective (hq.symm.trans hcalc)⟩
  obtain ⟨s', t', hs, ht, h'⟩ := hstale.runSteps hc hlegal n
  exact ⟨s', t', hs, ht, h'.toSameOutside⟩

end Sys2Proof.Machine

/-! ## Proofs: the handshakes of a cycle, and what no output depends on -/

namespace Sys2Proof.Machine

/-! ### The outputs of a cycle (R135) -/

/-- `req_rdy` says that the unit is in IDLE, and `resp_en` that it is in DONE with a ready consumer. -/
theorem State.cycleFrom_out (q : FsmState) (s : State) : (s.cycleFrom q).out =
    outputsOf s.nowInput (decide (q = .IDLE)) (decide (q = .DONE) && s.nowInput.respRdy) s.R := by
  cases q <;> rfl

/-- Settles O25: the transfers are read off the outputs of the cycle. -/
theorem transfersHappenExactlyWhen : Obligations.TransfersHappenExactlyWhen := by
  intro s hlegal hc
  obtain ⟨q, hq⟩ := hlegal.exists_state
  refine ⟨s.cycleFrom q, step_of_clocked_of_code hc hq, ?_⟩
  rw [State.cycleFrom_out, hq, FsmState.code_inj, FsmState.code_inj]
  refine ⟨?request, ?response, ?never, rfl⟩
  case request => simp [and_comm]
  case response => simp
  case never => cases q <;> simp

/-- Settles O26: both outputs are functions of the FSM state and `resp_rdy`. -/
theorem handshakeDependsOnStateAndReady : Obligations.HandshakeDependsOnStateAndReady := by
  intro s t hlegal hs ht hS hrdy
  obtain ⟨q, hq⟩ := hlegal.exists_state
  refine ⟨s.cycleFrom q, t.cycleFrom q, step_of_clocked_of_code hs hq, step_of_clocked_of_code ht (hS.trans hq), ?_⟩
  rw [State.cycleFrom_out, State.cycleFrom_out, hrdy]
  exact ⟨rfl, rfl⟩

/-- Settles O47: the transfer shows in the outputs, which do not read reset, and the reset cycle ends in IDLE with
nothing recorded. -/
theorem handshakeDuringReset : Obligations.HandshakeDuringReset := by
  intro s hc hreset
  refine ⟨fun hidle hreq => ?request, fun hdone hrdy => ?response⟩
  case request =>
    obtain ⟨hcode, haccepted, -⟩ := State.cycleFrom_of_reset .IDLE hreset
    exact ⟨_, step_of_clocked_of_code hc hidle, by rw [State.cycleFrom_out]; simp [hreq], hcode, haccepted⟩
  case response =>
    obtain ⟨hcode, -⟩ := State.cycleFrom_of_reset .DONE hreset
    exact ⟨_, step_of_clocked_of_code hc hdone, by rw [State.cycleFrom_out]; simp [hrdy],
      by rw [State.cycleFrom_out, outputsOf_respMsg], hcode⟩

/-! ### The draws and the inputs of DONE (R81, R171) -/

/-- What the boundary sees of a DONE cycle depends on `R`, reset and `resp_rdy` alone: not on the draws, nor on the
request ports. -/
theorem State.cycleFrom_DONE_boundary {s t : State} (hR : t.R = s.R) (haccepted : t.accepted = s.accepted)
    (hdelivered : t.delivered = s.delivered) (hreset : t.nowInput.reset = s.nowInput.reset)
    (hrdy : t.nowInput.respRdy = s.nowInput.respRdy) :
    (t.cycleFrom .DONE).S = (s.cycleFrom .DONE).S ∧ (t.cycleFrom .DONE).R = (s.cycleFrom .DONE).R ∧
      (t.cycleFrom .DONE).out = (s.cycleFrom .DONE).out ∧
      (t.cycleFrom .DONE).accepted = (s.cycleFrom .DONE).accepted ∧
      (t.cycleFrom .DONE).delivered = (s.cycleFrom .DONE).delivered := by
  refine ⟨?code, ?result, ?out, ?accepted, ?delivered⟩
  case out => rw [State.cycleFrom_DONE_out, State.cycleFrom_DONE_out, hrdy, hR]
  all_goals simp [State.cycleFrom_DONE, hR, haccepted, hdelivered, hreset, hrdy]

/-- Outside DONE no draw is selected: that of IDLE picks between two unused sums. -/
theorem unitStep_draws {q : FsmState} (hq : q ≠ .DONE) (d : DataRegs) (v : Input) (w w' : Draws) :
    unitStep q d v w' = unitStep q d v w := by
  cases q with
  | IDLE => rfl
  | CALC => rfl
  | DONE => exact absurd rfl hq

theorem State.withDraws_nowInput {s : State} (h : s.inputs ≠ []) (d n : Nat) :
    (s.withDraws d n).nowInput = s.nowInput := by
  obtain ⟨v, rest, hin⟩ := List.exists_cons_of_ne_nil h
  rw [s.nowInput_of_cons v rest hin]
  exact State.nowInput_of_cons _ v rest hin

/-- A cycle commits what `Step` gives on the current ports. -/
theorem State.cycleFrom_eq_commit (q : FsmState) (s : State) : s.cycleFrom q =
    (s.setShamt (shiftAmount s.B)).commit (s.stepOn q s.nowInput).out (s.stepOn q s.nowInput).next.code
      (s.stepOn q s.nowInput).regs := rfl

/-- Outside DONE other draws change the count of draws and nothing else. -/
theorem State.cycleFrom_withDraws {q : FsmState} (hq : q ≠ .DONE) {s : State} (h : s.inputs ≠ []) (d n : Nat) :
    (s.withDraws d n).cycleFrom q = (s.cycleFrom q).withDraws d (n + 1) := by
  have hnow := State.withDraws_nowInput h d n
  have hstep : (s.withDraws d n).stepOn q s.nowInput = s.stepOn q s.nowInput := unitStep_draws hq ..
  rw [State.cycleFrom_eq_commit, State.cycleFrom_eq_commit, hnow, hstep]
  simp only [State.commit, State.setShamt_nowInput, hnow]
  rfl

/-- Settles O29: outside DONE no draw is selected, and in DONE the draws select only what `A` and `B` take. -/
theorem drawsNeverReachTheBoundary : Obligations.DrawsNeverReachTheBoundary := by
  intro s d n hlegal hc hin
  obtain ⟨q, hq⟩ := hlegal.exists_state
  refine ⟨s.cycleFrom q, (s.withDraws d n).cycleFrom q, step_of_clocked_of_code hc hq,
    step_of_clocked_of_code hc hq, ?_⟩
  by_cases hdone : q = .DONE
  · subst hdone
    have hnow := State.withDraws_nowInput hin d n
    obtain ⟨hS, hR, hout, haccepted, hdelivered⟩ := State.cycleFrom_DONE_boundary (s := s) (t := s.withDraws d n)
      rfl rfl rfl (by rw [hnow]) (by rw [hnow])
    exact ⟨hS, hR, hout, haccepted, hdelivered, fun hne => absurd hq hne⟩
  · rw [State.cycleFrom_withDraws hdone hin]
    exact ⟨rfl, rfl, rfl, rfl, rfl, fun _ => rfl⟩

/-- Settles O45: a CALC cycle reads no input but reset, and the boundary of a DONE cycle only reset and `resp_rdy`. -/
theorem onlyResetAbandonsAnOperation : Obligations.OnlyResetAbandonsAnOperation := by
  intro s v w rest hc hv hw
  refine ⟨fun hcalc => ?looping, fun hdone hrdy => ?done⟩
  case looping =>
    refine ⟨_, step_of_clocked_of_code hc hcalc, ?_⟩
    rw [← State.cycleFrom_CALC_of_reset_eq s rest (hw.trans hv.symm)]
    exact step_of_clocked_of_code hc hcalc
  case done =>
    exact ⟨_, _, step_of_clocked_of_code hc hdone, step_of_clocked_of_code hc hdone,
      State.cycleFrom_DONE_boundary rfl rfl rfl (hw.trans hv.symm) hrdy⟩

end Sys2Proof.Machine

/-! ## Proofs: single operations and the rows a step runs -/

namespace Sys2Proof.Machine

/-- Settles O10: the shifters and the adder are those of bit vectors. -/
theorem datapathArithmetic : Obligations.DatapathArithmetic := by
  intro a b r k
  exact ⟨aShifted_toNat a k, bShifted_toNat b k, BitVec.toNat_add a r⟩

/-- Settles O19: under reset the reserved cycle commits the draws, in IDLE, with nothing recorded. -/
theorem reservedStateIsLeftByReset : Obligations.ReservedStateIsLeftByReset := by
  intro x s hreset
  rw [exec_state3Reserved, State.reservedCycle, if_pos hreset]
  exact ⟨_, rfl, rfl, if_pos hreset, if_pos hreset, rfl, rfl, rfl, rfl, rfl, rfl⟩

/-- Settles O20: the input of a well-formed row selects that row, which drives `shamtOf`. -/
theorem shamtRowsDriveTheSignal : Obligations.ShamtRowsDriveTheSignal := by
  intro i v s hrow hwf
  have henc : encode i = .shamtIn v := by
    rcases hrow with rfl | rfl | rfl | rfl | rfl | rfl | rfl | rfl | rfl <;> rfl
  have hdrive : drivenShamt i = some (shamtOf v) := by
    rw [← decodeShamt_of_wellFormed henc hwf, drivenShamt_decodeShamt]
  exact exec_of_drivenShamt hdrive s

theorem step_of_queued {s : State} {m : ReqMsg} {rest : List ReqMsg} (h : s.mulQueue = m :: rest) :
    step s = exec (decodeReq m) { s with mulQueue := rest } := by
  rw [step, State.runNext, h]

/-- Settles O21: the words that the two rows are decoded from are `B[7:0]` and `{S, B[0]}`. -/
theorem stepRunsTheDecodedRows : Obligations.StepRunsTheDecodedRows := by
  refine ⟨fun s hc => ?cycle, fun s m rest hqueue => step_of_queued hqueue⟩
  case cycle =>
    rw [step, State.runNext, hc]
    rfl

/-! ### The trace (R188) -/

/-- The trace's word for the current cycle, by the control row. -/
def kindOfRow : Instr → Option CalcKind
  | .calcShiftAdd => some .shiftAndAdd
  | .calcShift => some .shiftOnly
  | _ => none

theorem kindOfRow_eq_shiftAndAdd_iff (i : Instr) : kindOfRow i = some .shiftAndAdd ↔ i = .calcShiftAdd := by
  cases i <;> simp [kindOfRow]

theorem kindOfRow_eq_shiftOnly_iff (i : Instr) : kindOfRow i = some .shiftOnly ↔ i = .calcShift := by
  cases i <;> simp [kindOfRow]

/-- The trace reads off `{S, B[0]}` what the decode map of R79 reads off it. -/
theorem State.traceReport_kind (s : State) : s.traceReport.kind = kindOfRow s.ctrlRow := by
  have hrow : ∀ (c : FsmCode) (x : BitVec 1),
      (if c = FsmState.CALC.code then some (if x = 1 then CalcKind.shiftAndAdd else .shiftOnly) else none) =
        kindOfRow (decodeCtrl (c ++ x)) := by decide
  exact hrow s.S (bLsb s.B)

/-- Settles O55: the trace's word is that of the cycle's control row, which each of the two rows has to itself. -/
theorem traceNamesTheOperation : Obligations.TraceNamesTheOperation := by
  intro s
  refine ⟨rfl, ?add, ?shift⟩
  case add => rw [State.traceReport_kind, kindOfRow_eq_shiftAndAdd_iff]; rfl
  case shift => rw [State.traceReport_kind, kindOfRow_eq_shiftOnly_iff]; rfl

end Sys2Proof.Machine

/-! ## Proofs: what every step keeps, a clock cycle or a whole MUL -/

namespace Sys2Proof.Machine

/-! ### Invariants of a step -/

/-- A property of the unit that every cycle from one of the three states keeps, and that does not speak of what the
surroundings list or of the requests that wait. -/
structure CycleInvariant (P : State → Prop) : Prop where
  legal : ∀ {s}, P s → s.Legal
  surroundings : ∀ {s} (l : List Input) (w : List ReqMsg), P s → P { s with inputs := l, mulQueue := w }
  cycle : ∀ {s} {q : FsmState}, P s → s.S = q.code → P (s.cycleFrom q)

section
variable {P : State → Prop} (hP : CycleInvariant P)
include hP

theorem CycleInvariant.tick_keeps {s : State} (hs : P s) : ∃ t, s.tick = .next t ∧ P t := by
  obtain ⟨q, hq⟩ := (hP.legal hs).exists_state
  exact ⟨s.cycleFrom q, State.tick_of_code hq, hP.cycle hs hq⟩

theorem CycleInvariant.tick_drivenBy_keeps {s : State} (hs : P s) (v : Input) :
    ∃ t, (s.drivenBy v).tick = .next t ∧ P t :=
  hP.tick_keeps (hP.surroundings (v :: s.inputs.tail) s.mulQueue hs)

theorem CycleInvariant.mulReceive_keeps (fuel : Nat) {s : State} (hs : P s) :
    ∃ t, mulReceive fuel s = .next t ∧ P t := by
  induction fuel generalizing s with
  | zero => exact ⟨s, rfl, hs⟩
  | succ fuel ih =>
    obtain ⟨t, htick, ht⟩ := hP.tick_drivenBy_keeps hs s.mulInput
    simp only [mulReceive, htick]
    split
    · exact ⟨t, rfl, ht⟩
    · exact ih ht

theorem CycleInvariant.mulSend_keeps (m : ReqMsg) (fuel : Nat) {s : State} (hs : P s) :
    ∃ t, mulSend m fuel s = .next t ∧ P t := by
  induction fuel generalizing s with
  | zero => exact ⟨s, rfl, hs⟩
  | succ fuel ih =>
    obtain ⟨t, htick, ht⟩ := hP.tick_drivenBy_keeps hs (s.mulInput.sending m)
    simp only [mulSend, htick]
    split
    · exact ih ht
    · split
      · exact hP.mulReceive_keeps _ ht
      · exact ih ht

/-- A step from a state with the property answers, and keeps it: a cycle by itself, a whole MUL cycle by cycle. -/
theorem CycleInvariant.step_keeps {s : State} (hs : P s) : ∃ t, step s = .next t ∧ P t := by
  cases hqueue : s.mulQueue with
  | nil => rw [step_of_clocked hqueue]; exact hP.tick_keeps hs
  | cons m rest => rw [step_of_queued hqueue]; exact hP.mulSend_keeps _ _ (hP.surroundings s.inputs rest hs)

/-- Any next state that a step answers has the property. -/
theorem CycleInvariant.of_step {s t : State} (hs : P s) (h : step s = .next t) : P t := by
  obtain ⟨u, hstep, hu⟩ := hP.step_keeps hs
  cases hstep.symm.trans h
  exact hu

end

/-! ### The three states (R134, R180) -/

theorem legal_cycleInvariant : CycleInvariant State.Legal where
  legal := id
  surroundings _ _ := id
  cycle _ _ := FsmState.code_legal _

/-- Settles O31: no cycle leaves the three states, and a MUL is made of cycles. -/
theorem legalStateIsKept : Obligations.LegalStateIsKept := fun _ _ => legal_cycleInvariant.of_step

/-- Settles O32: a cycle from the three states answers and stays in them, and so does a MUL. -/
theorem legalStateNeverStops : Obligations.LegalStateNeverStops := by
  intro s hlegal
  obtain ⟨t, hstep, -⟩ := legal_cycleInvariant.step_keeps hlegal
  exact ⟨t, hstep⟩

/-! ### The account of transfers (R57, R58, R162, R165) -/

theorem State.accounted_of_IDLE {s : State} (h : s.S = FsmState.IDLE.code) :
    s.Accounted ↔ s.delivered = s.accepted.map product := by
  rw [State.Accounted, h, FsmState.ofCode_code]

theorem State.accounted_of_CALC {s : State} (h : s.S = FsmState.CALC.code) : s.Accounted ↔
    ∃ m rest, s.accepted = m :: rest ∧ s.delivered = rest.map product ∧ s.R + s.A * s.B = product m := by
  rw [State.Accounted, h, FsmState.ofCode_code]

theorem State.accounted_of_DONE {s : State} (h : s.S = FsmState.DONE.code) : s.Accounted ↔
    ∃ m rest, s.accepted = m :: rest ∧ s.delivered = rest.map product ∧ s.R = product m := by
  rw [State.Accounted, h, FsmState.ofCode_code]

/-- The reserved code keeps no account. -/
theorem State.Accounted.legal {s : State} (h : s.Accounted) : s.Legal := by
  intro hs
  have h0 : FsmState.ofCode 0b11 = none := by decide
  rw [State.Accounted, hs, h0] at h
  exact h

/-- An IDLE cycle in which no request is presented leaves the records and the state as they were. -/
theorem State.cycleFrom_IDLE_unpresented {s : State} (hreset : s.nowInput.reset = false)
    (hreq : s.nowInput.reqEn = false) :
    (s.cycleFrom .IDLE).S = FsmState.IDLE.code ∧ NoTransfer s (s.cycleFrom .IDLE) := by
  rw [State.cycleFrom_IDLE]
  refine ⟨?code, ?accepted, ?delivered, rfl⟩ <;> simp [hreset, hreq]

theorem State.Accounted.cycleFrom_IDLE {s : State} (h : s.Accounted) (hidle : s.S = FsmState.IDLE.code)
    (hreset : s.nowInput.reset = false) : (s.cycleFrom .IDLE).Accounted := by
  rw [State.accounted_of_IDLE hidle] at h
  cases hreq : s.nowInput.reqEn with
  | true =>
    have ht := State.cycleFrom_IDLE_transfers hreset hreq
    exact (State.accounted_of_CALC ht.code).2 ⟨_, _, ht.accepted, ht.delivered.trans h, ht.calculating.loop⟩
  | false =>
    obtain ⟨hcode, hquiet⟩ := State.cycleFrom_IDLE_unpresented hreset hreq
    exact (State.accounted_of_IDLE hcode).2 (by rw [hquiet.delivered, hquiet.accepted, h])

theorem State.Accounted.cycleFrom_CALC {s : State} (h : s.Accounted) (hcalc : s.S = FsmState.CALC.code)
    (hreset : s.nowInput.reset = false) : (s.cycleFrom .CALC).Accounted := by
  obtain ⟨m, rest, haccepted, hdelivered, hloop⟩ := (State.accounted_of_CALC hcalc).1 h
  have hquiet := State.cycleFrom_CALC_noTransfer hreset
  have hacc := hquiet.accepted.trans haccepted
  have hdel := hquiet.delivered.trans hdelivered
  cases hleft : steps s.B with
  | zero =>
    have ht := State.Calculating.cycle_last ⟨hcalc, hloop, hleft⟩ hreset
    exact (State.accounted_of_DONE ht.code).2 ⟨m, rest, hacc, hdel, ht.result⟩
  | succ n =>
    have ht := State.Calculating.cycle ⟨hcalc, hloop, hleft⟩ hreset
    exact (State.accounted_of_CALC ht.code).2 ⟨m, rest, hacc, hdel, ht.loop⟩

theorem State.Accounted.cycleFrom_DONE {s : State} (h : s.Accounted) (hdone : s.S = FsmState.DONE.code)
    (hreset : s.nowInput.reset = false) : (s.cycleFrom .DONE).Accounted := by
  obtain ⟨m, rest, haccepted, hdelivered, hR⟩ := (State.accounted_of_DONE hdone).1 h
  have hhold : s.Holding (product m) := ⟨hdone, hR⟩
  cases hrdy : s.nowInput.respRdy with
  | true =>
    have ht := hhold.cycle_taken hreset hrdy
    refine (State.accounted_of_IDLE ht.code).2 ?_
    rw [ht.delivered, ht.accepted, haccepted, hdelivered, List.map_cons]
  | false =>
    have ht := hhold.cycle_stalled hreset hrdy
    have hquiet := State.cycleFrom_DONE_noTransfer hreset hrdy
    exact (State.accounted_of_DONE ht.code).2
      ⟨m, rest, hquiet.accepted.trans haccepted, hquiet.delivered.trans hdelivered, ht.result⟩

theorem State.Accounted.cycleFrom {s : State} {q : FsmState} (h : s.Accounted) (hq : s.S = q.code) :
    (s.cycleFrom q).Accounted := by
  cases hreset : s.nowInput.reset with
  | true =>
    obtain ⟨hcode, haccepted, hdelivered⟩ := State.cycleFrom_of_reset q hreset
    exact (State.accounted_of_IDLE hcode).2 (by rw [hdelivered, haccepted, List.map_nil])
  | false =>
    cases q with
    | IDLE => exact h.cycleFrom_IDLE hq hreset
    | CALC => exact h.cycleFrom_CALC hq hreset
    | DONE => exact h.cycleFrom_DONE hq hreset

theorem accounted_cycleInvariant : CycleInvariant State.Accounted where
  legal := State.Accounted.legal
  surroundings _ _ := id
  cycle := State.Accounted.cycleFrom

/-- Settles O33: every cycle keeps the account, a reset cycle because it empties both records, and a MUL is made of
cycles. -/
theorem accountIsKept : Obligations.AccountIsKept := fun _ _ => accounted_cycleInvariant.of_step

/-- Settles O34: both records are empty and the unit is in IDLE. -/
theorem accountHoldsAtReset : Obligations.AccountHoldsAtReset := ⟨(State.accounted_of_IDLE rfl).2 rfl, rfl⟩

/-! ### The order of responses -/

/-- The requests transferred are the unanswered ones, one in CALC and DONE and none in IDLE, and before them those whose
products were delivered. -/
theorem State.Accounted.exists_unanswered {s : State} (h : s.Accounted) : ∃ unanswered answered,
    s.accepted = unanswered ++ answered ∧ s.delivered = answered.map product ∧
      unanswered.length = if s.S = FsmState.IDLE.code then 0 else 1 := by
  obtain ⟨q, hq⟩ := h.legal.exists_state
  cases q with
  | IDLE => exact ⟨[], s.accepted, rfl, (State.accounted_of_IDLE hq).1 h, (if_pos hq).symm⟩
  | CALC =>
    obtain ⟨m, rest, haccepted, hdelivered, -⟩ := (State.accounted_of_CALC hq).1 h
    exact ⟨[m], rest, haccepted, hdelivered, (if_neg (by rw [hq]; decide)).symm⟩
  | DONE =>
    obtain ⟨m, rest, haccepted, hdelivered, -⟩ := (State.accounted_of_DONE hq).1 h
    exact ⟨[m], rest, haccepted, hdelivered, (if_neg (by rw [hq]; decide)).symm⟩

/-- Settles O35: oldest first, the unanswered request comes after all the answered ones. -/
theorem responsesAnswerRequestsInOrder : Obligations.ResponsesAnswerRequestsInOrder := by
  intro s h
  obtain ⟨unanswered, answered, haccepted, hdelivered, hlen⟩ := h.exists_unanswered
  refine ⟨?count, fun k hk => ?order⟩
  case count => rw [haccepted, hdelivered, List.length_append, List.length_map, hlen, Nat.add_comm]
  case order =>
    have hk' : k < answered.reverse.length := by
      rwa [hdelivered, List.length_map, ← List.length_reverse] at hk
    rw [haccepted, hdelivered, ← List.map_reverse, List.getElem?_map, List.reverse_append,
      List.getElem?_append_left hk']

end Sys2Proof.Machine

/-! ## Proofs: the cycles of CALC and DONE, and the bounds of the step count (R162 to R167) -/

namespace Sys2Proof.Machine

/-- Settles O36: the loop invariant is that of every CALC cycle; with `B = 0` no shift is left, and `B` is even. -/
theorem calcCycleKeepsTheLoopInvariant : Obligations.CalcCycleKeepsTheLoopInvariant := by
  intro s hc hcalc
  refine ⟨s.cycleFrom .CALC, step_of_clocked_of_code hc hcalc, s.cycleFrom_CALC_loop, fun hB => ⟨?result, ?done⟩⟩
  case result =>
    have heven : ¬ bLsb s.B = 1 := by rw [hB]; decide
    rw [State.cycleFrom_CALC, State.endCycle_R, if_neg heven]
  case done =>
    intro hreset
    have hcalc' : s.Calculating (s.R + s.A * s.B) 0 := ⟨hcalc, rfl, by rw [hB, steps_zero]⟩
    exact (hcalc'.cycle_last hreset).code

/-- A shift of a word that is not zero shortens it. -/
theorem size_ushiftRight_shiftAmount_lt {b : Word} (h : b ≠ 0) :
    (b >>> (shiftAmount b).toNat).toNat.size < b.toNat.size := by
  have hpos : 0 < b.toNat.size := Nat.size_pos.2 (Nat.pos_of_ne_zero fun h0 => h (BitVec.eq_of_toNat_eq h0))
  obtain ⟨n, hn⟩ := Nat.exists_eq_succ_of_ne_zero hpos.ne'
  have hlt : b.toNat < 2 ^ (n + 1) := Nat.size_le.1 hn.le
  rw [hn, Nat.lt_succ_iff, Nat.size_le]
  exact ushiftRight_shiftAmount_lt hlt

/-- Settles O37: the cycle shifts `B`, which shortens it, and a shorter number is smaller. -/
theorem calcCycleShrinksB : Obligations.CalcCycleShrinksB := by
  intro s hc hcalc hB
  have hsize := size_ushiftRight_shiftAmount_lt hB
  refine ⟨s.cycleFrom .CALC, step_of_clocked_of_code hc hcalc, ?_⟩
  rw [State.cycleFrom_CALC, State.endCycle_B, bShifted]
  exact ⟨lt_of_not_ge fun hge => absurd (Nat.size_le_size hge) (by omega), hsize⟩

/-- Settles O38: the fuel of the count, a unit for each bit, is enough. -/
theorem stepCountRecursion : Obligations.StepCountRecursion := ⟨steps_zero, fun _ => steps_of_ne_zero⟩

/-- Settles O40: the bounds hold for every word, and the two operands that reach 32 are evaluated. -/
theorem stepCountBounds : Obligations.StepCountBounds :=
  ⟨fun b => ⟨steps_le b, steps_eq_zero_iff b⟩, by decide, by decide⟩

/-- Settles O42: a unit in DONE holds what `R` is. -/
theorem resultIsHeldUntilTaken : Obligations.ResultIsHeldUntilTaken := by
  intro n s hc hdone hstall
  obtain ⟨t, hrun, hhold, hquiet⟩ := runSteps_of_holding (p := s.R) hc ⟨hdone, rfl⟩ hstall
  exact ⟨t, hrun, hhold.code, hhold.result, hquiet.accepted, hquiet.delivered⟩

end Sys2Proof.Machine

/-! ## Proofs: MUL's response (R161, R169) -/

namespace Sys2Proof.Machine

/-- Settles O48: the unit comes to IDLE, takes the request and gives the product; from IDLE these are the only
transfers. -/
theorem mulDeliversTheProduct : Obligations.MulDeliversTheProduct := by
  intro a b s hlegal hr
  obtain ⟨i, t, u, hrun, hqueue, hidle, ht, hu⟩ := exec_mul_of_legal a b hlegal hr
  refine ⟨u, hrun, hu.code, hu.R, by rw [hu.out], by rw [hu.out, BitVec.toNat_mul],
    hu.mulQueue.trans (ht.mulQueue.trans hqueue), fun hs => ?_⟩
  rw [hu.accepted, hu.delivered, ht.accepted, ht.delivered, hidle hs]
  exact ⟨rfl, rfl⟩

/-- Settles O51: from either state MUL ends in IDLE with the product of its own operands. -/
theorem mulForgetsThePast : Obligations.MulForgetsThePast := by
  intro a b s t hs ht hrs hrt
  obtain ⟨_, _, s', hruns, -, -, -, hs'⟩ := exec_mul_of_legal a b hs hrs
  obtain ⟨_, _, t', hrunt, -, -, -, ht'⟩ := exec_mul_of_legal a b ht hrt
  exact ⟨s', t', hruns, hrunt, by rw [ht'.out, hs'.out], ht'.R.trans hs'.R.symm, ht'.code.trans hs'.code.symm⟩

end Sys2Proof.Machine

/-! ## Proofs: the closed form of the step count (R164) -/

namespace Sys2Proof.Machine

/-! ### Runs of zeros in a list of bits -/

/-- The shifts spent on the runs of zeros of `zeroRunsFrom run l`: a shift skips at most 8 of them. -/
def runShifts (run : Nat) (l : List Bool) : Nat := ((zeroRunsFrom run l).map fun z => (z + 7) / 8).sum

theorem runShifts_false_cons (run : Nat) (l : List Bool) : runShifts run (false :: l) = runShifts (run + 1) l := by
  rw [runShifts, zeroRunsFrom, runShifts]

theorem runShifts_true_cons (run : Nat) (l : List Bool) :
    runShifts run (true :: l) = (run + 7) / 8 + runShifts 0 l := by
  cases run with
  | zero => rw [runShifts, zeroRunsFrom, runShifts]; omega
  | succ run => rw [runShifts, zeroRunsFrom, List.map_cons, List.sum_cons, runShifts]

/-- Zeros read at the front lengthen the run. -/
theorem runShifts_replicate_append (run k : Nat) (l : List Bool) :
    runShifts run (List.replicate k false ++ l) = runShifts (run + k) l := by
  induction k generalizing run with
  | zero => rfl
  | succ k ih =>
    rw [List.replicate_succ, List.cons_append, runShifts_false_cons, ih, Nat.add_right_comm, Nat.add_assoc]

/-- Zeros above the most-significant set bit end no run. -/
theorem runShifts_append_replicate (run k : Nat) (l : List Bool) :
    runShifts run (l ++ List.replicate k false) = runShifts run l := by
  induction l generalizing run with
  | nil =>
    rw [← List.append_nil (List.replicate k false), List.nil_append, runShifts_replicate_append]
    simp [runShifts, zeroRunsFrom]
  | cons x l ih =>
    cases x with
    | false => rw [List.cons_append, runShifts_false_cons, runShifts_false_cons, ih]
    | true => rw [List.cons_append, runShifts_true_cons, runShifts_true_cons, ih]

/-- Eight zeros more, in a run that ends, are one shift more. -/
theorem runShifts_add_eight (run : Nat) {l : List Bool} (h : true ∈ l) :
    runShifts (run + 8) l = 1 + runShifts run l := by
  induction l generalizing run with
  | nil => cases h
  | cons x l ih =>
    cases x with
    | false =>
      rw [runShifts_false_cons, runShifts_false_cons, ← ih _ (by simpa using h), Nat.add_right_comm]
    | true => rw [runShifts_true_cons, runShifts_true_cons]; omega

/-! ### The bits of a shifted word -/

theorem length_bitsOf (b : Word) : (bitsOf b).length = 32 := by
  rw [bitsOf, List.length_map, List.length_range]

theorem getElem_bitsOf (b : Word) {i : Nat} (h : i < (bitsOf b).length) : (bitsOf b)[i] = b.getLsbD i := by
  simp [bitsOf]

/-- A right shift drops bits at the bottom and fills zeros in at the top. -/
theorem bitsOf_ushiftRight (b : Word) {k : Nat} (hk : k ≤ 32) :
    bitsOf (b >>> k) = (bitsOf b).drop k ++ List.replicate k false := by
  apply List.ext_getElem
  · rw [List.length_append, List.length_drop, List.length_replicate, length_bitsOf, length_bitsOf,
      Nat.sub_add_cancel hk]
  · intro i _ _
    rw [getElem_bitsOf, BitVec.getLsbD_ushiftRight, List.getElem_append]
    split
    · rw [List.getElem_drop, getElem_bitsOf]
    next hge =>
      rw [List.length_drop, length_bitsOf] at hge
      rw [List.getElem_replicate, BitVec.getLsbD_of_ge]
      omega

/-- Low bits that are zero are zeros at the front of the list. -/
theorem bitsOf_of_low_zero {b : Word} {k : Nat} (hk : k ≤ 32) (h : ∀ i < k, b.getLsbD i = false) :
    bitsOf b = List.replicate k false ++ (bitsOf b).drop k := by
  have htake : (bitsOf b).take k = List.replicate k false := by
    apply List.ext_getElem
    · simp [length_bitsOf, hk]
    · intro i _ hi
      rw [List.length_replicate] at hi
      rw [List.getElem_take, getElem_bitsOf, List.getElem_replicate, h i hi]
  rw [← htake, List.take_append_drop]

theorem drop_bitsOf (b : Word) {k : Nat} (hk : k < 32) :
    (bitsOf b).drop k = b.getLsbD k :: (bitsOf b).drop (k + 1) := by
  rw [List.drop_eq_getElem_cons (by rwa [length_bitsOf]), getElem_bitsOf]

theorem true_mem_bitsOf {b : Word} (h : b ≠ 0) : true ∈ bitsOf b := by
  by_contra hnone
  refine h (BitVec.eq_of_getLsbD_eq fun i hi => ?_)
  have hmem : b.getLsbD i ∈ bitsOf b := List.mem_map.2 ⟨i, List.mem_range.2 hi, rfl⟩
  cases hbit : b.getLsbD i with
  | true => rw [hbit] at hmem; exact absurd hmem hnone
  | false => simp

/-! ### The closed form on a list of bits -/

/-- The closed form of R164 on a list of bits. -/
def closedCount (l : List Bool) : Nat := l.count true + runShifts 0 l

theorem stepsClosed_eq_closedCount (b : Word) : stepsClosed b = closedCount (bitsOf b) := rfl

theorem closedCount_append_replicate (l : List Bool) (k : Nat) :
    closedCount (l ++ List.replicate k false) = closedCount l := by
  simp [closedCount, runShifts_append_replicate, List.count_replicate]

theorem closedCount_true_cons (l : List Bool) : closedCount (true :: l) = 1 + closedCount l := by
  rw [closedCount, closedCount, List.count_cons_self, runShifts_true_cons]
  omega

/-- One shift skips a run of up to 8 zeros that ends there, or 8 zeros of a longer run. -/
theorem closedCount_replicate_append {k : Nat} {l : List Bool} (hpos : 1 ≤ k) (hle : k ≤ 8) (hl : true ∈ l)
    (hend : k < 8 → ∃ l', l = true :: l') : closedCount (List.replicate k false ++ l) = 1 + closedCount l := by
  have hruns : runShifts k l = 1 + runShifts 0 l := by
    by_cases hk : k < 8
    · obtain ⟨l', rfl⟩ := hend hk
      rw [runShifts_true_cons, runShifts_true_cons]
      omega
    · have hk8 : k = 0 + 8 := by omega
      rw [hk8, runShifts_add_eight 0 hl]
  have hcount : (List.replicate k false ++ l).count true = l.count true := by simp [List.count_replicate]
  rw [closedCount, closedCount, runShifts_replicate_append, hcount, Nat.zero_add, hruns]
  omega

theorem stepsClosed_ushiftRight (b : Word) {k : Nat} (hk : k ≤ 32) :
    stepsClosed (b >>> k) = closedCount ((bitsOf b).drop k) := by
  rw [stepsClosed_eq_closedCount, bitsOf_ushiftRight b hk, closedCount_append_replicate]

/-! ### The recursion of the closed form -/

/-- The bit at an even word's shift amount, below 8, is the one that ends the count of zeros (R100). -/
theorem getLsbD_shiftAmount {b : Word} (heven : b.getLsbD 0 = false) (hlt : (shiftAmount b).toNat < 8) :
    b.getLsbD (shiftAmount b).toNat = true := by
  have hlow : (shamtIn b).getLsbD 0 = false := by rw [shamtIn_getLsbD (by omega), heven]
  rw [shiftAmount, shamtOf_toNat_of_even hlow] at hlt ⊢
  have hne : shamtIn b ≠ 0 := fun h0 => by rw [h0, ctz8_zero] at hlt; omega
  rw [← shamtIn_getLsbD hlt]
  exact getLsbD_ctz8 hne

theorem stepsClosed_of_odd {b : Word} (h : b.getLsbD 0 = true) : stepsClosed b = 1 + stepsClosed (b >>> 1) := by
  have hbits : bitsOf b = true :: (bitsOf b).drop 1 := by
    rw [← h]
    exact drop_bitsOf b (k := 0) (by omega)
  rw [stepsClosed_ushiftRight b (by omega), stepsClosed_eq_closedCount, ← closedCount_true_cons, ← hbits]

theorem stepsClosed_of_even {b : Word} (hb : b ≠ 0) (h : b.getLsbD 0 = false) :
    stepsClosed b = 1 + stepsClosed (b >>> (shiftAmount b).toNat) := by
  obtain ⟨hpos, hle⟩ : 1 ≤ (shiftAmount b).toNat ∧ (shiftAmount b).toNat ≤ 8 := shamtOf_toNat_bounds (shamtIn b)
  have hbits := bitsOf_of_low_zero (b := b) (by omega) fun _ => getLsbD_of_lt_shiftAmount h
  have hmem : true ∈ (bitsOf b).drop (shiftAmount b).toNat := by
    have hin := true_mem_bitsOf hb
    rw [hbits] at hin
    simpa using hin
  have hend (hlt : (shiftAmount b).toNat < 8) : ∃ l, (bitsOf b).drop (shiftAmount b).toNat = true :: l :=
    ⟨_, by rw [drop_bitsOf b (by omega), getLsbD_shiftAmount h hlt]⟩
  calc stepsClosed b
      = closedCount (List.replicate (shiftAmount b).toNat false ++ (bitsOf b).drop (shiftAmount b).toNat) := by
        rw [← hbits, stepsClosed_eq_closedCount]
    _ = 1 + closedCount ((bitsOf b).drop (shiftAmount b).toNat) :=
        closedCount_replicate_append hpos hle hmem hend
    _ = 1 + stepsClosed (b >>> (shiftAmount b).toNat) := by rw [stepsClosed_ushiftRight b (by omega)]

/-- The closed form meets the recursion of R164. -/
theorem stepsClosed_of_ne_zero {b : Word} (hb : b ≠ 0) :
    stepsClosed b = 1 + stepsClosed (b >>> (shiftAmount b).toNat) := by
  cases h : b.getLsbD 0 with
  | true =>
    have hk : (shiftAmount b).toNat = 1 := by rw [shiftAmount_odd b ((bLsb_eq_one_iff b).2 h)]; rfl
    rw [hk, stepsClosed_of_odd h]
  | false => exact stepsClosed_of_even hb h

/-- Settles O39: the count and the closed form are 0 at zero and meet the same recursion, whose shifts shorten the
word. -/
theorem stepCountClosedForm : Obligations.StepCountClosedForm := by
  intro b
  induction hn : b.toNat.size using Nat.strong_induction_on generalizing b with
  | _ n ih =>
    by_cases hb : b = 0
    · rw [hb, steps_zero]
      decide
    · rw [steps_of_ne_zero hb, stepsClosed_of_ne_zero hb,
        ih _ (hn ▸ size_ushiftRight_shiftAmount_lt hb) _ rfl]

end Sys2Proof.Machine

/-! ## Proofs: MUL is its clock cycles (R161, R92) -/

namespace Sys2Proof.Machine

/-! ### A consumer that is ready, and nothing else -/

/-- The ports of a cycle of MUL with nothing listed (log entry 4). -/
def readyInput (stream idx : Nat) : Input :=
  { reset := false, reqEn := false, respRdy := true, reqMsg := Config.drawReqMsg stream idx }

/-- The ports of the `n` cycles of MUL with nothing listed that take the draws from `idx` on. -/
def readyInputs (stream idx n : Nat) : List Input := (List.range n).map fun k => readyInput stream (idx + k)

theorem readyInputs_succ (stream idx n : Nat) :
    readyInputs stream idx (n + 1) = readyInput stream idx :: readyInputs stream (idx + 1) n := by
  simp [readyInputs, List.range_succ_eq_map, Function.comp_def, Nat.add_assoc, Nat.add_comm 1]

/-- The state with these ports listed for the coming `n` cycles. -/
def State.driveReady (s : State) (n : Nat) : State := s.withInputs (readyInputs s.drawStream s.drawIdx n)

theorem State.mulInput_eq_readyInput {s : State} (h : s.inputs = []) :
    s.mulInput = readyInput s.drawStream s.drawIdx := by
  rw [State.mulInput, h]
  rfl

theorem State.driveReady_zero {s : State} (h : s.inputs = []) : s.driveReady 0 = s :=
  State.ext rfl rfl rfl rfl rfl rfl rfl rfl h.symm rfl rfl rfl

/-- A run in which the consumer is ready from the second cycle on starts with the cycle of MUL that drives the first. -/
theorem runSteps_of_then_ready {s : State} {q : FsmState} (hc : s.Clocked) (hq : s.S = q.code) (v : Input) (n : Nat) :
    runSteps (n + 1) (s.withInputs (v :: readyInputs s.drawStream (s.drawIdx + 1) n)) =
      runSteps n (((s.drivenBy v).cycleFrom q).driveReady n) :=
  runSteps_succ_of_step
    (step_of_clocked_of_code (s := s.withInputs (v :: readyInputs s.drawStream (s.drawIdx + 1) n)) hc hq) n

theorem runSteps_driveReady {s : State} {q : FsmState} (hc : s.Clocked) (hq : s.S = q.code) (hin : s.inputs = [])
    (n : Nat) : runSteps (n + 1) (s.driveReady (n + 1)) =
      runSteps n (((s.drivenBy s.mulInput).cycleFrom q).driveReady n) := by
  rw [State.driveReady, readyInputs_succ, ← State.mulInput_eq_readyInput hin, runSteps_of_then_ready hc hq]

/-- Driving the ports of a cycle with nothing else listed leaves nothing listed after it. -/
theorem State.cycleFrom_drivenBy_inputs {s : State} (hin : s.inputs = []) (v : Input) (q : FsmState) :
    ((s.drivenBy v).cycleFrom q).inputs = [] := by
  rw [State.cycleFrom_inputs, State.drivenBy_inputs, List.tail_cons, hin, List.tail_nil]

/-! ### The consumer's loop -/

theorem State.Calculating.drivenBy {s : State} {p : Word} {n : Nat} (h : s.Calculating p n) (v : Input) :
    (s.drivenBy v).Calculating p n := ⟨h.code, h.loop, h.left⟩

theorem State.Holding.drivenBy {s : State} {p : Word} (h : s.Holding p) (v : Input) : (s.drivenBy v).Holding p :=
  ⟨h.code, h.result⟩

/-- A CALC cycle of the consumer's loop without reset. -/
theorem mulReceive_succ_of_calculating {s : State} {p : Word} {n : Nat} (h : s.Calculating p n)
    (hreset : s.mulInput.reset = false) (fuel : Nat) :
    mulReceive (fuel + 1) s = mulReceive fuel ((s.drivenBy s.mulInput).cycleFrom .CALC) := by
  rw [mulReceive_succ (State.tick_of_code h.code) hreset, State.cycleFrom_CALC_out, if_neg Bool.false_ne_true]

/-- In DONE, nothing listed, the loop is one cycle. -/
theorem mulReceive_eq_runSteps_of_holding {s : State} {p : Word} (h : s.Holding p) (hc : s.Clocked)
    (hin : s.inputs = []) (fuel : Nat) : mulReceive (fuel + 1) s = runSteps 1 (s.driveReady 1) := by
  obtain ⟨hreset, hrdy⟩ := State.mulInput_of_nil hin
  have hout := (h.drivenBy s.mulInput).cycle_taken hreset hrdy |>.out
  rw [mulReceive_succ (State.tick_of_code h.code) hreset, hout, if_pos rfl, runSteps_driveReady hc h.code hin,
    State.driveReady_zero (State.cycleFrom_drivenBy_inputs hin ..), runSteps]

/-- In CALC with `n` shifts to go, nothing listed, the loop is the `n + 1` cycles of CALC and that of DONE. -/
theorem mulReceive_eq_runSteps_of_calculating {s : State} {p : Word} {n fuel : Nat} (h : s.Calculating p n)
    (hc : s.Clocked) (hin : s.inputs = []) (hfuel : n + 2 ≤ fuel) :
    mulReceive fuel s = runSteps (n + 2) (s.driveReady (n + 2)) := by
  induction n generalizing s fuel with
  | zero =>
    obtain ⟨fuel, rfl⟩ : ∃ f, fuel = f + 2 := ⟨fuel - 2, by omega⟩
    have hreset := (State.mulInput_of_nil hin).1
    rw [mulReceive_succ_of_calculating h hreset, runSteps_driveReady hc h.code hin]
    exact mulReceive_eq_runSteps_of_holding ((h.drivenBy _).cycle_last hreset) hc
      (State.cycleFrom_drivenBy_inputs hin ..) _
  | succ n ih =>
    obtain ⟨fuel, rfl⟩ : ∃ f, fuel = f + 1 := ⟨fuel - 1, by omega⟩
    have hreset := (State.mulInput_of_nil hin).1
    rw [mulReceive_succ_of_calculating h hreset, runSteps_driveReady hc h.code hin]
    exact ih ((h.drivenBy _).cycle hreset) hc (State.cycleFrom_drivenBy_inputs hin ..) (by omega)

/-! ### The requester's loop -/

/-- The ports of a cycle of MUL in which the requester presents `m`. -/
def State.sendInput (s : State) (m : ReqMsg) : Input := { s.mulInput with reqEn := true, reqMsg := m }

/-- The state after the IDLE cycle of MUL in which the requester presents `m`. -/
def State.afterSend (s : State) (m : ReqMsg) : State := (s.drivenBy (s.sendInput m)).cycleFrom .IDLE

theorem State.afterSend_transfers {s : State} (hreset : s.mulInput.reset = false) (m : ReqMsg) :
    RequestTransferred m s (s.afterSend m) :=
  (NoTransfer.drivenBy s (s.sendInput m)).requestTransferred
    (State.cycleFrom_IDLE_transfers (s := s.drivenBy (s.sendInput m)) hreset rfl)

theorem State.afterSend_inputs (s : State) (m : ReqMsg) : (s.afterSend m).inputs = s.inputs.drop 1 :=
  List.drop_one.symm

/-- The first CALC cycle of MUL has all `steps b` shifts to go. -/
theorem State.afterSend_calculating {s : State} (hreset : s.mulInput.reset = false) (a b : Word) :
    (s.afterSend (packReq a b)).Calculating (a * b) (steps b) := by
  simpa using (State.afterSend_transfers hreset (packReq a b)).calculating

/-- MUL from IDLE is the cycle in which the request transfers and then the consumer's loop. -/
theorem exec_mul_of_idle {s : State} (hidle : s.S = FsmState.IDLE.code) (hreset : s.mulInput.reset = false)
    (a b : Word) : exec (.mul a b) s =
      mulReceive (receiveCycles (s.afterSend (packReq a b))) (s.afterSend (packReq a b)) := by
  have hexec : exec (.mul a b) s = mulSend (packReq a b) (receiveCycles s + 1) s := rfl
  have htick : (s.drivenBy (s.mulInput.sending (packReq a b))).tick = .next (s.afterSend (packReq a b)) := by
    rw [Input.sending_of_not_reset hreset]
    exact State.tick_of_code hidle
  rw [hexec, mulSend_succ htick hreset, (State.afterSend_transfers hreset _).reqFire, if_pos rfl]

/-- Settles O49: the requester's loop takes the request in its first cycle, and the consumer's loop is the other
`steps b + 2`. -/
theorem mulIsItsCycles : Obligations.MulIsItsCycles := by
  intro a b s hc hidle hin
  have hreset := (State.mulInput_of_nil hin).1
  have hfuel : steps b + 2 ≤ receiveCycles (s.afterSend (packReq a b)) := by
    have := steps_le b
    rw [receiveCycles]
    omega
  rw [exec_mul_of_idle hidle hreset, mulReceive_eq_runSteps_of_calculating (State.afterSend_calculating hreset a b) hc
    (State.cycleFrom_drivenBy_inputs hin ..) hfuel, State.afterSend, ← runSteps_of_then_ready hc hidle,
    State.sendInput, State.mulInput_eq_readyInput hin]
  rfl

end Sys2Proof.Machine

/-! ## Proofs: a reset abandons MUL (R201) -/

namespace Sys2Proof.Machine

/-- The unit after a reset cycle that abandoned a multiplication, with `l` still listed. -/
structure State.Abandoned (t : State) (l : List Input) : Prop where
  code : t.S = FsmState.IDLE.code
  respFire : t.out.respFire = false
  accepted : t.accepted = []
  delivered : t.delivered = []
  inputs : t.inputs = l

theorem State.NoResetFor.mulInput {s : State} {n : Nat} (h : s.NoResetFor (n + 1)) : s.mulInput.reset = false := by
  cases hin : s.inputs with
  | nil => exact (State.mulInput_of_nil hin).1
  | cons v rest =>
    rw [State.mulInput_of_cons hin]
    exact h 0 v (by omega) (by rw [hin]; rfl)

theorem State.mulInput_of_getElem?_zero {s : State} {v : Input} (h : s.inputs[0]? = some v) : s.mulInput = v := by
  rw [← State.nowInput_of_getElem?_zero h, State.mulInput, State.nowInput]
  cases hin : s.inputs with
  | nil => rw [hin] at h; cases h
  | cons w rest => rfl

/-- The reset cycle of a multiplication in CALC ends the consumer's loop. -/
theorem mulReceive_of_reset {s : State} {p : Word} {n : Nat} (h : s.Calculating p n)
    (hreset : s.mulInput.reset = true) (fuel : Nat) :
    ∃ t, mulReceive (fuel + 1) s = .next t ∧ t.Abandoned s.inputs.tail := by
  obtain ⟨hcode, haccepted, hdelivered⟩ := State.cycleFrom_of_reset (s := s.drivenBy s.mulInput) .CALC hreset
  have htick : (s.drivenBy s.mulInput).tick = .next _ := State.tick_of_code h.code
  exact ⟨_, by simp only [mulReceive, htick, hreset, Bool.true_or, if_true], hcode,
    by rw [State.cycleFrom_CALC_out], haccepted, hdelivered, rfl⟩

/-- The consumer's loop runs CALC cycles up to the first reset. -/
theorem mulReceive_of_reset_later {s : State} {p : Word} {n k fuel : Nat} {v : Input} (h : s.Calculating p n)
    (hkn : k ≤ n) (hfuel : k < fuel) (hr : s.NoResetFor k) (hk : s.inputs[k]? = some v) (hreset : v.reset = true) :
    ∃ t, mulReceive fuel s = .next t ∧ t.Abandoned (s.inputs.drop (k + 1)) := by
  obtain ⟨fuel, rfl⟩ : ∃ f, fuel = f + 1 := ⟨fuel - 1, by omega⟩
  induction k generalizing s n fuel with
  | zero =>
    rw [List.drop_one]
    exact mulReceive_of_reset h (by rw [State.mulInput_of_getElem?_zero hk, hreset]) fuel
  | succ k ih =>
    obtain ⟨n, rfl⟩ : ∃ m, n = m + 1 := ⟨n - 1, by omega⟩
    obtain ⟨fuel, rfl⟩ : ∃ f, fuel = f + 1 := ⟨fuel - 1, by omega⟩
    have hnow := hr.mulInput
    have hin : ((s.drivenBy s.mulInput).cycleFrom .CALC).inputs = s.inputs.drop 1 := List.drop_one.symm
    rw [mulReceive_succ_of_calculating h hnow]
    obtain ⟨t, hrun, ht⟩ := ih (s := (s.drivenBy s.mulInput).cycleFrom .CALC) ((h.drivenBy _).cycle hnow) (by omega)
      (State.NoResetFor.later (by rwa [Nat.add_comm] at hr) hin) (by rw [hin, List.getElem?_drop, Nat.add_comm, hk])
      fuel (by omega)
    rw [hin, List.drop_drop, Nat.add_comm 1] at ht
    exact ⟨t, hrun, ht⟩

/-- Settles O50: the request transfers in the first cycle, which lists no reset, and the consumer's loop runs CALC
cycles up to the reset. -/
theorem mulIsAbandonedByReset : Obligations.MulIsAbandonedByReset := by
  intro a b s k v hidle hr hk1 hk hv hreset
  obtain ⟨k, rfl⟩ : ∃ j, k = j + 1 := ⟨k - 1, by omega⟩
  have hin := s.afterSend_inputs (packReq a b)
  have hle := steps_le b
  obtain ⟨t, hrun, ht⟩ := mulReceive_of_reset_later (k := k) (fuel := receiveCycles (s.afterSend (packReq a b)))
    (State.afterSend_calculating hr.mulInput a b) (by omega) (by rw [receiveCycles]; omega)
    (State.NoResetFor.later (by rwa [Nat.add_comm] at hr) hin)
    (by rw [hin, List.getElem?_drop, Nat.add_comm, hv]) hreset
  rw [hin, List.drop_drop, Nat.add_comm 1] at ht
  exact ⟨t, (exec_mul_of_idle hidle hr.mulInput a b).trans hrun, ht.code, ht.respFire, ht.accepted, ht.delivered,
    ht.inputs⟩

end Sys2Proof.Machine

/-! ## Proofs: stimulus scripts (R90, R92) -/

namespace Sys2Proof.Machine

/-! ### One cycle of a script -/

theorem Bench.step_of_code {b : Bench} {q : FsmState} (h : b.unit.S = q.code) :
    b.step = .next (b.advance ((b.unit.onlyDriven b.drive).cycleFrom q)) := by
  rw [Bench.step, step_of_clocked_of_code (s := b.unit.onlyDriven b.drive) rfl h]

theorem Bench.run_succ_of_step {b c : Bench} (h : b.step = .next c) (n : Nat) : b.run (n + 1) = c.run n := by
  rw [Bench.run, h]

/-- Outside reset cycles both streams move on with the outputs of the cycle. -/
theorem Bench.advance_of_not_resetting {b : Bench} (h : b.resetting = false) (t : State) : b.advance t =
    { b with
      unit := t
      requester := advanceRequester b.requester t.out
      consumer := advanceConsumer b.consumer t.out
      cycle := b.cycle + 1
      mismatches := newMismatch b.consumer t.out ++ b.mismatches } := by
  rw [Bench.resetting, Bool.or_eq_false_iff, decide_eq_false_iff_not] at h
  obtain ⟨hleft, hassert⟩ := h
  rw [Bench.advance, if_neg hleft, hassert, if_neg Bool.false_ne_true]

/-! ### What a script drives -/

theorem Bench.drive_reset {b : Bench} (h : b.resetting = false) : b.drive.reset = false := by
  rw [Bench.drive, h, if_neg Bool.false_ne_true]
  split <;> split <;> rfl

/-- A current `SEND` presents its message. -/
theorem Bench.drive_of_present {b : Bench} {m : ReqMsg} {rs : List RequesterItem} (h : b.resetting = false)
    (hreq : b.requester = .present m :: rs) : b.drive.reqEn = true ∧ b.drive.reqMsg = m := by
  rw [Bench.drive, h, if_neg Bool.false_ne_true, hreq]
  rcases b.consumer with _ | ⟨_ | _, _⟩ <;> exact ⟨rfl, rfl⟩

/-- A current `RECV` is ready. -/
theorem Bench.drive_of_take {b : Bench} {v : Word} {cs : List ConsumerItem} (h : b.resetting = false)
    (hcon : b.consumer = .take v :: cs) : b.drive.respRdy = true := by
  rw [Bench.drive, h, if_neg Bool.false_ne_true, hcon]

/-! ### How the streams move on -/

theorem advanceRequester_present (m : ReqMsg) (rs : List RequesterItem) (o : Outputs) :
    advanceRequester (.present m :: rs) o = if o.reqFire then rs else .present m :: rs := rfl

theorem advanceConsumer_take (v : Word) (cs : List ConsumerItem) (o : Outputs) :
    advanceConsumer (.take v :: cs) o = if o.respFire then cs else .take v :: cs := rfl

theorem newMismatch_take_of_quiet (v : Word) (cs : List ConsumerItem) {o : Outputs} (h : o.respFire = false) :
    newMismatch (.take v :: cs) o = [] := by
  rw [newMismatch, h, Bool.false_and, if_neg Bool.false_ne_true]

/-- A response that transfers is a mismatch exactly when it is not the expected one. -/
theorem newMismatch_take_of_respFire (v : Word) (cs : List ConsumerItem) {o : Outputs} (h : o.respFire = true) :
    newMismatch (.take v :: cs) o = if o.respMsg = v then [] else [(v, o.respMsg)] := by
  by_cases hv : o.respMsg = v <;> simp [newMismatch, h, hv]

/-- Settles O56: with both commands current the request transfers exactly in IDLE and the response exactly in DONE. -/
theorem commandsRepeatUntilTransfer : Obligations.CommandsRepeatUntilTransfer := by
  intro b m v rs cs hlegal hb hreq hcon
  obtain ⟨q, hq⟩ := hlegal.exists_state
  have hreset := Bench.drive_reset hb
  obtain ⟨hreqEn, hreqMsg⟩ := Bench.drive_of_present hb hreq
  have hrdy := Bench.drive_of_take hb hcon
  have hout := State.cycleFrom_out q (b.unit.onlyDriven b.drive)
  have hreqFire : ((b.unit.onlyDriven b.drive).cycleFrom q).out.reqFire = decide (q = .IDLE) := by
    rw [hout]; simp [hreqEn]
  have hrespFire : ((b.unit.onlyDriven b.drive).cycleFrom q).out.respFire = decide (q = .DONE) := by
    rw [hout]; simp [hrdy]
  have hrespMsg : ((b.unit.onlyDriven b.drive).cycleFrom q).out.respMsg = b.unit.R := by
    rw [hout]; rfl
  refine ⟨_, Bench.step_of_code hq, ?_⟩
  rw [Bench.advance_of_not_resetting hb, hreq, hcon, advanceRequester_present, advanceConsumer_take, hreqFire,
    hrespFire, hq, Ne, Ne, FsmState.code_inj, FsmState.code_inj]
  refine ⟨rfl, fun hidle => ?sent, fun hbusy => ?waiting, fun hdone => ?received, fun hnone => ?expecting⟩
  case sent =>
    subst hidle
    have ht := State.cycleFrom_IDLE_transfers (s := b.unit.onlyDriven b.drive) hreset hreqEn
    exact ⟨rfl, ht.accepted.trans (by rw [State.onlyDriven_nowInput, hreqMsg]; rfl)⟩
  case waiting =>
    obtain ⟨-, haccepted⟩ := State.cycleFrom_takes_no_request hbusy (b.unit.onlyDriven b.drive)
    rw [State.onlyDriven_nowInput, hreset, if_neg Bool.false_ne_true] at haccepted
    exact ⟨if_neg (by simpa using hbusy), haccepted⟩
  case received =>
    have hfire := hrespFire.trans (decide_eq_true hdone)
    exact ⟨if_pos (decide_eq_true hdone), by rw [newMismatch_take_of_respFire v cs hfire, hrespMsg]⟩
  case expecting =>
    have hquiet := hrespFire.trans (decide_eq_false hnone)
    exact ⟨if_neg (by simpa using hnone), by rw [newMismatch_take_of_quiet v cs hquiet]; rfl⟩

/-! ### The script `MUL a, b -> v` -/

/-- The request has transferred and only the `RECV` of `v` is left. -/
structure Bench.Receiving (b : Bench) (v : Word) : Prop where
  resetting : b.resetLeft = 0 ∧ b.assertResetAt = []
  requester : b.requester = []
  consumer : b.consumer = [.take v]
  mismatches : b.mismatches = []

/-- The script is over, and has recorded a mismatch exactly when `v` is not the response `p`. -/
structure Bench.Over (b : Bench) (v p : Word) : Prop where
  requester : b.requester = []
  consumer : b.consumer = []
  code : b.unit.S = FsmState.IDLE.code
  mismatches : b.mismatches = if v = p then [] else [(v, p)]

theorem Bench.resetting_eq_false {b : Bench} (h : b.resetLeft = 0 ∧ b.assertResetAt = []) : b.resetting = false := by
  simp [Bench.resetting, h.1, h.2]

/-- A cycle in which no response transfers leaves the `RECV` current. -/
theorem Bench.Receiving.advance {b : Bench} {v : Word} (h : b.Receiving v) {t : State} (ht : t.out.respFire = false) :
    (b.advance t).Receiving v := by
  rw [Bench.advance_of_not_resetting (Bench.resetting_eq_false h.resetting), h.requester, h.consumer, h.mismatches]
  refine ⟨h.resetting, rfl, ?consumer, ?mismatches⟩
  case consumer => rw [advanceConsumer_take, ht, if_neg Bool.false_ne_true]
  case mismatches => rw [newMismatch_take_of_quiet v [] ht, List.append_nil]

theorem Bench.Receiving.step_of_holding {b : Bench} {v p : Word} (h : b.Receiving v) (hunit : b.unit.Holding p) :
    ∃ c, b.step = .next c ∧ c.Over v p := by
  have hb := Bench.resetting_eq_false h.resetting
  have hhold : (b.unit.onlyDriven b.drive).Holding p := ⟨hunit.code, hunit.result⟩
  have ht := hhold.cycle_taken (Bench.drive_reset hb) (Bench.drive_of_take hb h.consumer)
  have hfire : ((b.unit.onlyDriven b.drive).cycleFrom .DONE).out.respFire = true := by rw [ht.out]
  refine ⟨_, Bench.step_of_code hunit.code, ?_⟩
  rw [Bench.advance_of_not_resetting hb, h.requester, h.consumer, h.mismatches]
  refine ⟨rfl, ?consumer, ht.code, ?mismatches⟩
  case consumer => rw [advanceConsumer_take, hfire, if_pos rfl]
  case mismatches =>
    have hmsg : ((b.unit.onlyDriven b.drive).cycleFrom .DONE).out.respMsg = p := by rw [ht.out]
    simp only [newMismatch_take_of_respFire v [] hfire, hmsg, List.append_nil, eq_comm]

theorem Bench.Receiving.step_of_calculating {b : Bench} {v p : Word} {n : Nat} (h : b.Receiving v)
    (hunit : b.unit.Calculating p n) : ∃ c w, b.step = .next c ∧ c.Receiving v ∧ w.reset = false ∧
      c.unit = (b.unit.onlyDriven w).cycleFrom .CALC := by
  have hb := Bench.resetting_eq_false h.resetting
  refine ⟨_, b.drive, Bench.step_of_code hunit.code, h.advance (by rw [State.cycleFrom_CALC_out]),
    Bench.drive_reset hb, ?unit⟩
  case unit => rw [Bench.advance_of_not_resetting hb]

/-- With `n` shifts to go the script takes the `n + 1` cycles of CALC and that of DONE. -/
theorem Bench.Receiving.run_of_calculating {b : Bench} {v p : Word} {n : Nat} (h : b.Receiving v)
    (hunit : b.unit.Calculating p n) : ∃ c, b.run (n + 2) = .next c ∧ c.Over v p := by
  induction n generalizing b with
  | zero =>
    obtain ⟨c, w, hstep, hc, hw, hcu⟩ := h.step_of_calculating hunit
    have hcalc : (b.unit.onlyDriven w).Calculating p 0 := ⟨hunit.code, hunit.loop, hunit.left⟩
    obtain ⟨d, hstepd, hd⟩ := hc.step_of_holding (hcu ▸ hcalc.cycle_last hw)
    exact ⟨d, by rw [Bench.run_succ_of_step hstep, Bench.run_succ_of_step hstepd, Bench.run], hd⟩
  | succ n ih =>
    obtain ⟨c, w, hstep, hc, hw, hcu⟩ := h.step_of_calculating hunit
    have hcalc : (b.unit.onlyDriven w).Calculating p (n + 1) := ⟨hunit.code, hunit.loop, hunit.left⟩
    rw [Bench.run_succ_of_step hstep]
    exact ih hc (hcu ▸ hcalc.cycle hw)

/-- In its first cycle, the unit in IDLE, the script's request transfers; the outputs of that cycle are literal, so the
streams compute. -/
theorem Bench.step_mul_start (a b v : Word) {s : State} (h : s.S = FsmState.IDLE.code) :
    ∃ c, ((Script.mul a b v).start s).step = .next c ∧ c.Receiving v ∧ c.unit.Calculating (a * b) (steps b) := by
  have ht : RequestTransferred (packReq a b) _ _ :=
    State.cycleFrom_IDLE_transfers (s := s.onlyDriven ((Script.mul a b v).start s).drive) rfl rfl
  have hcalc := ht.calculating
  rw [product_packReq, reqB_packReq] at hcalc
  exact ⟨_, Bench.step_of_code (b := (Script.mul a b v).start s) h, ⟨⟨rfl, rfl⟩, rfl, rfl, rfl⟩, hcalc⟩

/-- Settles O57: the request transfers in the first cycle, and the other `steps b + 2` are those of CALC and DONE. -/
theorem mulScriptReceivesTheProduct : Obligations.MulScriptReceivesTheProduct := by
  intro a b v s hidle
  obtain ⟨c, hstep, hc, hcalc⟩ := Bench.step_mul_start a b v hidle
  obtain ⟨d, hrun, hd⟩ := hc.run_of_calculating hcalc
  exact ⟨d, (Bench.run_succ_of_step hstep _).trans hrun, hd.requester, hd.consumer, hd.code, hd.mismatches⟩

end Sys2Proof.Machine
